-- ==== Sys2Proof/Word.lean ====
section
/-!
DEFINITION. The word types of the block (spec/00_scope.md R4, R9, R11): bytes, 16-bit header fields and
registers, 32-bit words. All values are unsigned.
-/
namespace Sys2Proof

/-- One byte of a frame buffer or of a datagram. -/
abbrev Byte := BitVec 8

/-- A 16-bit field: a header field or a 16-bit register (R9). -/
abbrev Half := BitVec 16

/-- A 32-bit word: a bus word, a CRC register, a command word (R4, R80). -/
abbrev Word := BitVec 32

end Sys2Proof
end

