-- ==== Sys2Proof/Config.lean ====
section
/-!
DEFINITION. The implementation parameters (spec/00_scope.md R4 to R10; spec/93_implementation_defined.md §2) as
named constants, and the free values the spec leaves open, as opaque constants without a body: nothing can
evaluate one or prove which value it has.
-/
namespace Sys2Proof.Config

/-- `POLY`, the CRC polynomial (R4). UNVERIFIED literal of the source, log 16. -/
def poly : Word := 0x04C11DB7

/-- `CRC_INIT_VALUE`, the initial CRC register (R4). UNVERIFIED literal of the source, log 16. -/
def crcInitValue : Word := 0xFFFFFFFF

/-- Shift/XOR steps per word (R4). -/
def crcStepsPerWord : Nat := 32

/-- `PREAMBLE` (R5). UNVERIFIED literal of the source, log 16. -/
def preamble : Half := 0x484C

/-- `COMMAND` (R5). UNVERIFIED literal of the source, log 16. -/
def command : Half := 0x0046

/-- `HDR_BYTES` (R6). -/
def hdrBytes : Nat := 8

/-- `HDR_WORDS` (R6). -/
def hdrWords : Nat := 2

/-- `TRL_BYTES` (R6). -/
def trlBytes : Nat := 4

/-- `FRAME_OVERHEAD = HDR_BYTES + TRL_BYTES` (R6). -/
def frameOverhead : Nat := hdrBytes + trlBytes

/-- `MAX_FRAME`, the size of TX and of RX in bytes (R7). -/
def maxFrame : Nat := 1024

/-- `MAX_PAYLOAD = MAX_FRAME - FRAME_OVERHEAD` (R7). -/
def maxPayload : Nat := maxFrame - frameOverhead

/-- `SLOT_BUDGET`, polling slots per request (R8). -/
def slotBudget : Fin 4 := 3

/-- `SLOT_PERIOD` in seconds (R8). No rule reads it: time is not modelled (log 14). -/
def slotPeriodSeconds : Nat := 1

/-- The longest datagram the network agent delivers (R164, D31). -/
def maxDatagram : Nat := 65535

/-- Size of the register window in bytes (R50). -/
def windowBytes : Nat := 0x1000

/-- `BASE`, the bus address of the register window: OPEN (R10, R67), a free value (log 13). -/
opaque base : Nat

/-- One less than `SLOT_CYCLES`: OPEN (R10, R169), a free value (log 14). -/
opaque slotCyclesPred : Nat

/-- `SLOT_CYCLES`, clock cycles in one polling slot, positive (92_eei_decisions.md, open parameters). No rule
depends on it (R10), so no meaning reads it (log 14). -/
def slotCycles : Nat := slotCyclesPred + 1

/-- `PORT_PROTOCOL`, the signal-level protocol of the bus and datagram ports: OPEN (R10, D30; 93_implementation_defined.md
U9), a free value. The spec names no protocol, so it is the number of one among any: the form is the model's choice
(DESIGN CHOICE, log 25). No rule depends on it (R10), so no meaning reads it: an access or a datagram is one step. -/
opaque portProtocol : Nat

/-- `draw16()` of generator `SEQ_SOURCE` (R132): the `n`-th sequence number drawn, a free value under no law (log 4). -/
opaque seqDraw : (n : Nat) → Half

/-- The unspecified byte `i` of TX in the `epoch`-th drawing of the buffers (R24, R220): a free value (log 5). -/
opaque txDraw : (epoch i : Nat) → Byte

/-- The unspecified byte `i` of RX in the `epoch`-th drawing of the buffers (R25, R220): a free value (log 5). -/
opaque rxDraw : (epoch i : Nat) → Byte

end Sys2Proof.Config
end

