-- ==== Sys2Proof/Syntax.lean ====
section
/-!
DEFINITION. The block's instructions: the five commands a host writes to CMD (spec/30_encoding.md R81), one
constructor per row of spec/opcode_table.json.
-/
namespace Sys2Proof

/-- A command. Its other operands come from registers and buffers, never from the word (R80). -/
inductive Instr where
  /-- `crc.init`: CRC_INIT, 40_crc.md R113. -/
  | crcInit
  /-- `crc.feed`: CRC_FEED, 40_crc.md R114. -/
  | crcFeed
  /-- `frm.enc L`: ENCODE, 41_frame_codec.md R131. `len` is L, the payload length in bytes, a natural number
  (00_scope.md R13); only `len < 65536` has an encoding (`Instr.wf`, R83). -/
  | encode (len : Nat)
  /-- `frm.dec`: DECODE, 41_frame_codec.md R141. -/
  | decode
  /-- `corr.req`: REQUEST, 42_correlator.md R161. -/
  | request
  deriving DecidableEq, Repr

end Sys2Proof
end

