-- ==== Sys2Proof/WellFormed.lean ====
section
/-!
DEFINITION. Which instructions have an encoding: ENCODE's length operand must fit the 16-bit IMM field
(spec/30_encoding.md R83, R92); every other command has no operand and is always well formed.
-/
namespace Sys2Proof

/-- The instruction has a command word (R83: `L` in `[0, 65535]`). -/
def Instr.wf : Instr → Bool
  | .crcInit => true
  | .crcFeed => true
  | .encode len => decide (len < 65536)
  | .decode => true
  | .request => true

end Sys2Proof
end

