-- ==== Sys2Proof/Decode.lean ====
section
/-!
DEFINITION. The command word, format C (spec/30_encoding.md R80 to R83): its fields, the opcode table as rows of
match and mask (R81), the decoder, total on every 32-bit word and rejecting by name (R82), and the encoder.
-/
namespace Sys2Proof

/-- Field OP, bits 7:0 (R80). -/
def opField (w : Word) : BitVec 8 := w.extractLsb' 0 8

/-- Field RSV, bits 15:8 (R80). -/
def rsvField (w : Word) : BitVec 8 := w.extractLsb' 8 8

/-- Field IMM, bits 31:16 (R80). -/
def immField (w : Word) : BitVec 16 := w.extractLsb' 16 16

/-- Why a word is illegal: the three kinds of R82, the first that applies in the order OP, RSV, IMM. The machine's
effect is the same for all three (`ERR <- ILLEGAL_CMD`). -/
inductive DecodeError where
  /-- OP is 0x00 or in 0x06..0xFF. -/
  | unknownOpcode (op : BitVec 8)
  /-- RSV is not 0. -/
  | reservedNotZero (rsv : BitVec 8)
  /-- IMM is not 0 with an OP other than 0x03. -/
  | immediateNotZero (imm : BitVec 16)
  deriving DecidableEq, Repr

/-- One row of the opcode table (R81). -/
structure OpcodeRow where
  mnemonic : String
  pattern : Word
  mask : Word
  build : Word → Instr

/-- "A word `w` selects mnemonic `m` if and only if `(w AND mask_m) = match_m`" (R81). -/
def OpcodeRow.selects (r : OpcodeRow) (w : Word) : Bool := (w &&& r.mask) == r.pattern

/-- The complete match and mask patterns of R81. -/
def opcodeTable : List OpcodeRow :=
  [ { mnemonic := "CRC_INIT", pattern := 0x00000001, mask := 0xFFFFFFFF, build := fun _ => .crcInit },
    { mnemonic := "CRC_FEED", pattern := 0x00000002, mask := 0xFFFFFFFF, build := fun _ => .crcFeed },
    { mnemonic := "ENCODE", pattern := 0x00000003, mask := 0x0000FFFF,
      build := fun w => .encode (immField w).toNat },
    { mnemonic := "DECODE", pattern := 0x00000004, mask := 0xFFFFFFFF, build := fun _ => .decode },
    { mnemonic := "REQUEST", pattern := 0x00000005, mask := 0xFFFFFFFF, build := fun _ => .request } ]

/-- The name of an illegal word's rejection (R82). -/
def illegalKind (w : Word) : DecodeError :=
  if opField w = 0 ∨ 6 ≤ (opField w).toNat then .unknownOpcode (opField w)
  else if rsvField w ≠ 0 then .reservedNotZero (rsvField w)
  else .immediateNotZero (immField w)

/-- Decode a command word: the row that selects it, or the named rejection (R81, R82). -/
def decodeWord (w : Word) : Except DecodeError Instr :=
  match opcodeTable.find? (·.selects w) with
  | some row => .ok (row.build w)
  | none => .error (illegalKind w)

/-- The opcode of a command (R81). -/
def Instr.opcode : Instr → BitVec 8
  | .crcInit => 0x01
  | .crcFeed => 0x02
  | .encode _ => 0x03
  | .decode => 0x04
  | .request => 0x05

/-- The immediate operand of a command: L for ENCODE, 0 for every other (R80, R83). -/
def Instr.imm : Instr → Nat
  | .crcInit => 0
  | .crcFeed => 0
  | .encode len => len
  | .decode => 0
  | .request => 0

/-- The command word of an instruction: IMM, RSV = 0 and OP in format C (R80); for a well-formed instruction no bit
of the operand is lost. A length of 65536 or more has no word (R83, R92); for it the low 16 bits of the length are taken:
the model's choice, DESIGN CHOICE, log 24. -/
def encodeWord (i : Instr) : Word := BitVec.ofNat 16 i.imm ++ (0 : BitVec 8) ++ i.opcode

/-- The host's reading of one opcode-table row: the command word whose low `nbits` bits are `w`, the rest 0. -/
def decodeTableWord (nbits w : Nat) : Option Instr :=
  match decodeWord (BitVec.ofNat 32 (w % 2 ^ nbits)) with
  | .ok i => some i
  | .error _ => none

end Sys2Proof
end

