-- ==== Sys2Proof/Machine/Event.lean ====
section
/-!
DEFINITION. The steps the block's four agents can take (spec/10_state.md R20; the operations of
spec/30_encoding.md R92, R93), as plain data: a test program writes them in one merged order.
-/
namespace Sys2Proof.Machine

/-- Which way a host access goes. -/
inductive AccessKind where
  | read
  | write
  deriving DecidableEq, Repr

/-- One operation of the host's program (R92, R93). `bytes` is the access width in bytes; the interface accepts only 4
(20_memory.md R54). `off` is the 12-bit byte offset in the register window (R50). -/
inductive HostOp where
  /-- `ld32 OFF`: `MemRead(off, bytes)`. -/
  | load (bytes : Nat) (off : BitVec 12)
  /-- `st32 OFF, V`: `MemWrite(off, bytes, value)`. -/
  | store (bytes : Nat) (off : BitVec 12) (value : Word)
  /-- `wait.idle`: read STATUS until bit 0 is 0 (R93). -/
  | waitIdle
  deriving DecidableEq, Repr

/-- One event: what one agent does next (R20). -/
inductive Event where
  /-- The host's next operation. -/
  | host (op : HostOp)
  /-- `net.rx`: the network delivers one datagram (42_correlator.md R164). -/
  | datagram (bytes : List Byte)
  /-- `tmr.exp`: the slot timer ends the current slot (R169). -/
  | slotExpiry
  /-- `rst`: the reset input (70_reset_and_hazards.md R220). `redraw` says whether the unspecified buffer contents are
  drawn anew or kept, which R220 leaves open (log 7). -/
  | reset (redraw : Bool)
  deriving DecidableEq, Repr

/-- The event is the host's, so it keeps its place in the host's program order (20_memory.md R62). -/
def Event.isHost : Event → Bool
  | .host _ => true
  | .datagram _ => false
  | .slotExpiry => false
  | .reset _ => false

end Sys2Proof.Machine
end

