-- ==== Sys2Proof/Machine/State.lean ====
section
/-!
DEFINITION. The block's state (spec/10_state.md §2 to §4), why a step can stop, and the state after reset
(spec/70_reset_and_hazards.md R220).
-/
namespace Sys2Proof.Machine

/-- The ERR codes of 60_exceptions.md R191; codes 8 to 15 are never produced, so they have no constructor. -/
inductive ErrCode where
  | none
  | badPreamble
  | lengthMismatch
  | checksumMismatch
  | timeout
  | illegalCmd
  | encodeTooLong
  | notEncoded
  deriving DecidableEq, Repr

/-- What the decode function can answer (41_frame_codec.md R134). -/
inductive Verdict where
  | ok
  | badPreamble
  | lengthMismatch
  | checksumMismatch
  deriving DecidableEq, Repr

/-- LDEC: the verdict on the last frame examined, or that it decoded but failed correlation (60_exceptions.md R193). -/
inductive LastDecode where
  | verdict (v : Verdict)
  | seqMismatch
  deriving DecidableEq, Repr

/-- CORR, the correlator's state (10_state.md R30). -/
inductive CorrState where
  | idle
  | wait
  | matched
  | timeout
  deriving DecidableEq, Repr

/-- Why the machine stops with a fault. The spec gives the block no fault state (R203), and no run from reset reaches one. -/
inductive Fault where
  /-- Raised by REQUEST when TX_LEN exceeds the 1024 bytes of TX, so that the frame to emit has bytes that do not exist
  (R24, R162). Safe: no state a run reaches has such a TX_LEN (log 8). -/
  | txLenBeyondBuffer
  deriving DecidableEq, Repr

/-- Why a step has no meaning. -/
inductive Refusal where
  /-- Raised by `exec` alone, for an instruction without a meaning yet. Safe: the run stops. -/
  | notModelled (mnemonic : String)
  /-- Raised by a host access that is not 32 bits wide or not at a multiple of 4: outside the interface contract
  (20_memory.md R54, 60_exceptions.md R203). It names the access. Safe: the run stops. -/
  | accessOutsideContract (kind : AccessKind) (bytes : Nat) (off : BitVec 12)
  /-- Raised for a datagram above 65535 bytes, which the network agent never delivers (R164, R203; log 12). Safe: the run
  stops. -/
  | datagramTooLong (length : Nat)
  deriving DecidableEq, Repr

/-- The written bytes of one frame buffer: (index, byte) pairs, indices strictly rising. An index that is not listed
holds no byte written since the buffer's contents were drawn (log 5, 6). -/
abbrev Memory := List Host.Cell

/-- The state of the block (10_state.md R22 to R40), then four fields of the model's own. -/
structure State where
  /-- CRC_ACC (R22). -/
  crcAcc : Word
  /-- CRC_DIN (R23). -/
  crcDin : Word
  /-- The written bytes of TX (R24). -/
  tx : Memory
  /-- The written bytes of RX (R25). -/
  rx : Memory
  /-- TX_LEN (R26). -/
  txLen : Half
  /-- TX_SEQ (R27). -/
  txSeq : Half
  /-- TXV (R28). -/
  txv : Bool
  /-- RX_LEN (R29). -/
  rxLen : Half
  /-- CORR (R30). -/
  corr : CorrState
  /-- CORR_SEQ (R31). -/
  corrSeq : Half
  /-- SLOTS, 0 to 3 (R32). -/
  slots : Fin 4
  /-- ERR (R33). -/
  err : ErrCode
  /-- LDEC (R34). -/
  ldec : LastDecode
  /-- REJ (R35). -/
  rej : Bool
  /-- The datagrams emitted, oldest first (R40). -/
  sent : List (List Byte)
  /-- The model's own: how many sequence numbers have been drawn, index of `Config.seqDraw` (log 4). -/
  draws : Nat
  /-- The model's own: how many times the buffers have been drawn anew, index of `Config.txDraw` and `Config.rxDraw`
  (log 5, 7). -/
  bufferEpoch : Nat
  /-- The model's own: what the agents do next, in one merged order (log 1). -/
  pending : List Event
  /-- The model's own: what the host's reads returned, oldest first (log 10). -/
  hostReads : List Word
  deriving DecidableEq, Repr

/-- The state right after power-on reset (R220). TX and RX list nothing: each byte reads as its draw. -/
def State.reset : State where
  crcAcc := Config.crcInitValue
  crcDin := 0
  tx := []
  rx := []
  txLen := 0
  txSeq := 0
  txv := false
  rxLen := 0
  corr := .idle
  corrSeq := 0
  slots := 0
  err := .none
  ldec := .verdict .ok
  rej := false
  sent := []
  draws := 0
  bufferEpoch := 0
  pending := []
  hostReads := []

/-- The outcome of one step of this machine. -/
abbrev Result := Host.Outcome State Fault Refusal

end Sys2Proof.Machine
end

