-- ==== Sys2Proof/Machine/Flags.lean ====
section
/-!
DEFINITION. The STATUS register and its fields (spec/10_state.md R36, R39) with the numbers of their codes
(spec/60_exceptions.md R191, R193; spec/10_state.md R30).
-/
namespace Sys2Proof.Machine

/-- The number of an ERR code (R191). -/
def ErrCode.code : ErrCode → BitVec 4
  | .none => 0
  | .badPreamble => 1
  | .lengthMismatch => 2
  | .checksumMismatch => 3
  | .timeout => 4
  | .illegalCmd => 5
  | .encodeTooLong => 6
  | .notEncoded => 7

/-- The number of a verdict (R134, R193). -/
def Verdict.code : Verdict → BitVec 3
  | .ok => 0
  | .badPreamble => 1
  | .lengthMismatch => 2
  | .checksumMismatch => 3

/-- The ERR code DECODE reports for a verdict (R141). -/
def Verdict.err : Verdict → ErrCode
  | .ok => .none
  | .badPreamble => .badPreamble
  | .lengthMismatch => .lengthMismatch
  | .checksumMismatch => .checksumMismatch

/-- The number of an LDEC value (R193). -/
def LastDecode.code : LastDecode → BitVec 3
  | .verdict v => v.code
  | .seqMismatch => 4

/-- The number of a correlator state (R30). -/
def CorrState.code : CorrState → BitVec 2
  | .idle => 0
  | .wait => 1
  | .matched => 2
  | .timeout => 3

/-- BUSY, derived: 1 exactly while CORR = WAIT (R36). -/
def State.busy (s : State) : Bool := s.corr == .wait

/-- One status bit. -/
def flagBit (b : Bool) : Word := if b then 1 else 0

/-- STATUS, assembled from the state elements (R39); bits 3 and 31:15 read 0. -/
def State.status (s : State) : Word :=
  flagBit s.busy ||| (flagBit s.txv <<< 1) ||| (flagBit s.rej <<< 2) |||
    (s.err.code.setWidth 32 <<< 4) ||| (s.corr.code.setWidth 32 <<< 8) |||
    (BitVec.ofNat 32 s.slots.val <<< 10) ||| (s.ldec.code.setWidth 32 <<< 12)

end Sys2Proof.Machine
end

