-- ==== Sys2Proof/Machine/Operands.lean ====
section
/-!
DEFINITION. The operand forms: byte views of a buffer, little-endian fields and words (spec/00_scope.md R14,
spec/20_memory.md R52), the header fields (spec/30_encoding.md R85), and the register window's map of offsets
(spec/20_memory.md R51).
-/
namespace Sys2Proof.Machine

/-- A byte buffer as the pure functions read it: byte `i` for every index `i` (R12, R14). -/
abbrev View := Nat → Byte

/-- A byte sequence as a buffer. Bytes beyond its end read as 0; no rule's function reads one there. -/
def viewOf (bs : List Byte) : View := fun i => bs.getD i 0

/-- `pad4(n)`, the next multiple of 4 (R14). -/
def pad4 (n : Nat) : Nat := 4 * ((n + 3) / 4)

/-- `le16(B, i)` (R14): the byte at `i` is the less significant one. -/
def le16 (B : View) (i : Nat) : Half := B (i + 1) ++ B i

/-- `le32(B, i)` (R14). -/
def le32 (B : View) (i : Nat) : Word := B (i + 3) ++ B (i + 2) ++ B (i + 1) ++ B i

/-- `bytes16(v)` (R14). -/
def bytes16 (v : Half) : List Byte := [v.extractLsb' 0 8, v.extractLsb' 8 8]

/-- `bytes32(v)` (R14). -/
def bytes32 (v : Word) : List Byte :=
  [v.extractLsb' 0 8, v.extractLsb' 8 8, v.extractLsb' 16 8, v.extractLsb' 24 8]

/-- `words(B, a, k)` (R14). -/
def words (B : View) (a k : Nat) : List Word := (List.range k).map fun j => le32 B (a + 4 * j)

/-- `zeros(n)` (R130). -/
def zeros (n : Nat) : List Byte := List.replicate n 0

/-- `hdr_preamble(B)` (R85). -/
def hdrPreamble (B : View) : Half := le16 B 0

/-- `hdr_command(B)` (R85). -/
def hdrCommand (B : View) : Half := le16 B 2

/-- `hdr_seq(B)` (R85). -/
def hdrSeq (B : View) : Half := le16 B 4

/-- `hdr_len(B)` (R85), as the natural number lengths are (R13). -/
def hdrLen (B : View) : Nat := (le16 B 6).toNat

/-- What stands at an offset of the register window (R51). -/
inductive WindowSlot where
  | cmd
  | status
  | crcAcc
  | crcDin
  | txLen
  | txSeq
  | rxLen
  | corrSeq
  /-- TX_BUF, with the index of the word's first byte in TX. -/
  | txBuf (index : Nat)
  /-- RX_BUF, with the index of the word's first byte in RX. -/
  | rxBuf (index : Nat)
  | unmapped
  deriving DecidableEq, Repr

/-- The register map (R51). -/
def windowSlot (off : BitVec 12) : WindowSlot :=
  if off.toNat = 0x000 then .cmd
  else if off.toNat = 0x004 then .status
  else if off.toNat = 0x008 then .crcAcc
  else if off.toNat = 0x00C then .crcDin
  else if off.toNat = 0x010 then .txLen
  else if off.toNat = 0x014 then .txSeq
  else if off.toNat = 0x018 then .rxLen
  else if off.toNat = 0x01C then .corrSeq
  else if 0x400 ≤ off.toNat ∧ off.toNat < 0x800 then .txBuf (off.toNat - 0x400)
  else if 0x800 ≤ off.toNat ∧ off.toNat < 0xC00 then .rxBuf (off.toNat - 0x800)
  else .unmapped

/-- The bus address of a window offset (R10, R50). -/
def busAddress (off : BitVec 12) : Nat := Config.base + off.toNat

/-- The window offset a bus address selects: those of the 4096 bytes from BASE on (R50). -/
def windowOffset (addr : Nat) : Option (BitVec 12) :=
  if Config.base ≤ addr ∧ addr < Config.base + Config.windowBytes then
    some (BitVec.ofNat 12 (addr - Config.base))
  else none

/-- The access is inside the interface contract: 4 bytes wide at a multiple of 4 (R54). -/
def accessInContract (bytes : Nat) (off : BitVec 12) : Bool :=
  decide (bytes = 4) && decide (off.toNat % 4 = 0)

end Sys2Proof.Machine
end

