-- ==== Sys2Proof/Machine/Ops.lean ====
section
/-!
DEFINITION. The named operations over memory and registers that the meanings share: the frame buffers' memory
(spec/10_state.md R24, R25), the error report that stands in the place of an exception (spec/00_scope.md R12,
spec/60_exceptions.md R190: the block has no trap, so there is nothing to enter and nothing to return from),
command acceptance and rejection (spec/30_encoding.md R94), and the correlator's slot count (spec/10_state.md R32).
-/
namespace Sys2Proof.Machine

/-- The byte last written at an index, or none where nothing has been written since the draw. -/
def Memory.read : Memory → Nat → Option Byte
  | [], _ => none
  | (b, w) :: rest, a => if a = b then some w else Memory.read rest a

/-- Write one byte, keeping the list's indices strictly rising. -/
def Memory.write : Memory → Nat → Byte → Memory
  | [], a, v => [(a, v)]
  | (b, w) :: rest, a, v =>
    if a < b then (a, v) :: (b, w) :: rest
    else if a = b then (a, v) :: rest
    else (b, w) :: Memory.write rest a v

/-- Write consecutive bytes from index `a` on. -/
def Memory.writeBytes : Memory → Nat → List Byte → Memory
  | m, _, [] => m
  | m, a, b :: bs => Memory.writeBytes (Memory.write m a b) (a + 1) bs

/-- The indices strictly rise, start above `lo` or at it, and stay inside the 1024-byte buffer. -/
def Memory.wfFrom : Nat → Memory → Bool
  | _, [] => true
  | lo, (a, _) :: rest => decide (lo ≤ a) && decide (a < Config.maxFrame) && Memory.wfFrom (a + 1) rest

/-- The canonical form of a buffer's memory (log 6). -/
def Memory.wf (m : Memory) : Bool := Memory.wfFrom 0 m

/-- TX as the host and the frame commands read it: a written byte, or the draw (R24). -/
def State.txView (s : State) : View := fun i => (s.tx.read i).getD (Config.txDraw s.bufferEpoch i)

/-- RX as the host and the frame commands read it: a written byte, or the draw (R25). -/
def State.rxView (s : State) : View := fun i => (s.rx.read i).getD (Config.rxDraw s.bufferEpoch i)

/-- `B[a..b)` (R12). -/
def slice (B : View) (a b : Nat) : List Byte := (List.range (b - a)).map fun j => B (a + j)

/-- `TX[a..a+|bs|) <- bs`. -/
def State.writeTx (s : State) (a : Nat) (bs : List Byte) : State := { s with tx := s.tx.writeBytes a bs }

/-- `RX[a..a+|bs|) <- bs`. -/
def State.writeRx (s : State) (a : Nat) (bs : List Byte) : State := { s with rx := s.rx.writeBytes a bs }

/-- `CRC_ACC <- v`. -/
def State.setCrcAcc (s : State) (v : Word) : State := { s with crcAcc := v }

/-- `CRC_DIN <- v`. -/
def State.setCrcDin (s : State) (v : Word) : State := { s with crcDin := v }

/-- `RX_LEN <- n`. -/
def State.setRxLen (s : State) (n : Half) : State := { s with rxLen := n }

/-- `TXV <- b`. -/
def State.setTxv (s : State) (b : Bool) : State := { s with txv := b }

/-- `LDEC <- d`. -/
def State.setLdec (s : State) (d : LastDecode) : State := { s with ldec := d }

/-- `raise E`, that is `ERR <- code(E)`; execution goes on (R12, R190). `raise none` reports success. -/
def State.raise (s : State) (e : ErrCode) : State := { s with err := e }

/-- One sequence number has been drawn (R132; log 4). -/
def State.countDraw (s : State) : State := { s with draws := s.draws + 1 }

/-- What the host's read returned (log 10). -/
def State.logRead (s : State) (v : Word) : State := { s with hostReads := s.hostReads ++ [v] }

/-- The agents' remaining steps (log 1). -/
def State.setPending (s : State) (es : List Event) : State := { s with pending := es }

/-- A command written while BUSY = 1: `REJ <- 1`, nothing else (R94, R35). -/
def State.reject (s : State) : State := { s with rej := true }

/-- A command is accepted: `REJ <- 0` (R94). -/
def State.accept (s : State) : State := { s with rej := false }

/-- The first two checks of `command_write` (R94, R194), the same for every command word, legal or not: rejected while
BUSY = 1, otherwise accepted and run. -/
def gate (s : State) (run : State → Result) : Result :=
  if s.busy then .next s.reject else run s.accept

/-- `SLOTS <- SLOTS - 1` (R164, R169). At 0, where no run asks for it, it stays 0 (log 9). -/
def State.takeSlot (s : State) : State := { s with slots := ⟨s.slots.val - 1, by omega⟩ }

/-- `if SLOTS = 0 then CORR <- TIMEOUT ; ERR <- TIMEOUT` (R170). -/
def State.timeoutIfSpent (s : State) : State :=
  if s.slots = 0 then { s with corr := .timeout, err := .timeout } else s

end Sys2Proof.Machine
end

