-- ==== Sys2Proof/Machine/Crc.lean ====
section
/-!
DEFINITION. The checksum engine (spec/40_crc.md): the pure functions of R110 and R111, and the commands CRC_INIT
(R113) and CRC_FEED (R114).
-/
namespace Sys2Proof.Machine

/-- One shift/XOR step: the register shifts left, dropping bit 31, and takes POLY in if bit 31 was 1 (R110). -/
def crcStep (c : Word) : Word := if c.msb then (c <<< 1) ^^^ Config.poly else c <<< 1

/-- `n` shift/XOR steps. -/
def crcSteps : Nat → Word → Word
  | 0, c => c
  | n + 1, c => crcSteps n (crcStep c)

/-- `crc_word(c, w)`: the whole word enters at once, then 32 steps (R110). -/
def crcWord (c w : Word) : Word := crcSteps Config.crcStepsPerWord (c ^^^ w)

/-- `checksum(ws)`: no final XOR (R111). -/
def checksum (ws : List Word) : Word := ws.foldl crcWord Config.crcInitValue

/-- CRC_INIT (R113): `CRC_ACC <- CRC_INIT_VALUE ; ERR <- NONE`. -/
def execCrcInit (s : State) : Result :=
  gate s fun s => .next ((s.setCrcAcc Config.crcInitValue).raise .none)

/-- CRC_FEED (R114): `CRC_ACC <- crc_word(CRC_ACC, CRC_DIN) ; ERR <- NONE`. -/
def execCrcFeed (s : State) : Result :=
  gate s fun s => .next ((s.setCrcAcc (crcWord s.crcAcc s.crcDin)).raise .none)

end Sys2Proof.Machine
end

