-- ==== Sys2Proof/Machine/Codec.lean ====
section
/-!
DEFINITION. The frame codec (spec/41_frame_codec.md): the pure functions `encode_frame` (R130) and `decode_verdict`
(R134), and the commands ENCODE (R131 to R133) and DECODE (R141). Both compute their checksum in a datapath of their
own and never touch CRC_ACC (spec/40_crc.md R120).
-/
namespace Sys2Proof.Machine

/-- The frame header for sequence number `seq` and payload length `len` (R84, R130). -/
def frameHeader (seq : Half) (len : Nat) : List Byte :=
  bytes16 Config.preamble ++ bytes16 Config.command ++ bytes16 seq ++ bytes16 (BitVec.ofNat 16 len)

/-- `header.len/4 + 2`, the words the checksum covers (R88). -/
def coveredWords (len : Nat) : Nat := len / 4 + Config.hdrWords

/-- Header, payload and zero padding: the bytes the encoder's checksum covers (R130). -/
def frameBody (payload : List Byte) (seq : Half) : List Byte :=
  frameHeader seq payload.length ++ payload ++ zeros (pad4 payload.length - payload.length)

/-- `encode_frame(p, s)` (R130). -/
def encodeFrame (payload : List Byte) (seq : Half) : List Byte :=
  let body := frameBody payload seq
  body ++ bytes32 (checksum (words (viewOf body) 0 (coveredWords (pad4 payload.length))))

/-- The writes ENCODE makes in TX (R131): header, padding and trailer, around the payload already staged at
`TX[8..8+len)`. -/
def frameInto (len : Nat) (seq : Half) (s : State) : State :=
  let padded := pad4 len
  let s1 := (s.writeTx 0 (frameHeader seq len)).writeTx (Config.hdrBytes + len) (zeros (padded - len))
  let c := checksum (words s1.txView 0 (coveredWords padded))
  s1.writeTx (Config.hdrBytes + padded) (bytes32 c)

/-- ENCODE's successful path with the drawn sequence number `seq` (R131). -/
def encodeInto (len : Nat) (seq : Half) (s : State) : State :=
  { s with
    tx := (frameInto len seq s).tx
    txLen := BitVec.ofNat 16 (Config.frameOverhead + pad4 len)
    txSeq := seq
    txv := true
    err := .none }

/-- ENCODE (R131): the length bound first (R133), then the draw (R132), then the frame. -/
def execEncode (len : Nat) (s : State) : Result :=
  gate s fun s =>
    if Config.maxPayload < len then .next ((s.raise .encodeTooLong).setTxv false)
    else .next (encodeInto len (Config.seqDraw s.draws) s.countDraw)

/-- `decode_verdict(B, n)`: bounds, preamble, length, checksum, the first check to fail decides (R134 to R138, R195). -/
def decodeVerdict (B : View) (n : Nat) : Verdict :=
  if n < Config.hdrBytes ∨ Config.maxFrame < n then .lengthMismatch
  else if hdrPreamble B ≠ Config.preamble then .badPreamble
  else if hdrLen B + Config.frameOverhead ≠ n then .lengthMismatch
  else if le32 B (Config.hdrBytes + hdrLen B) ≠ checksum (words B 0 (coveredWords (hdrLen B))) then .checksumMismatch
  else .ok

/-- DECODE (R141): `LDEC <- v ; ERR <- v`. -/
def execDecode (s : State) : Result :=
  gate s fun s =>
    let v := decodeVerdict s.rxView s.rxLen.toNat
    .next ((s.setLdec (.verdict v)).raise v.err)

end Sys2Proof.Machine
end

