-- ==== Sys2Proof/Machine/Correlator.lean ====
section
/-!
DEFINITION. The request/response correlator (spec/42_correlator.md): the command REQUEST (R161 to R163) and the two
events it reacts to, datagram arrival (R164 to R168) and slot expiry (R169, R170).
-/
namespace Sys2Proof.Machine

/-- `emit(bytes)`: one datagram is appended to `sent` (R162, R40). -/
def State.emit (s : State) (datagram : List Byte) : State := { s with sent := s.sent ++ [datagram] }

/-- The correlator enters WAIT for the frame just emitted (R161). -/
def State.startWait (s : State) : State :=
  { s with corrSeq := s.txSeq, slots := Config.slotBudget, corr := .wait, txv := false, err := .none }

/-- REQUEST (R161): NOT_ENCODED while TXV = 0 (R163), otherwise emit `TX[0..TX_LEN)` and wait. A TX_LEN above the
buffer's 1024 bytes, which no run reaches, asks for bytes that do not exist (log 8). -/
def execRequest (s : State) : Result :=
  gate s fun s =>
    if s.txv then
      if Config.maxFrame < s.txLen.toNat then .fault .txLenBeyondBuffer
      else .next (s.emit (slice s.txView 0 s.txLen.toNat)).startWait
    else .next (s.raise .notEncoded)

/-- The receive port stores a datagram: its first `min(m, 1024)` bytes, and its true length `m` (R164, R168). -/
def State.capture (s : State) (d : List Byte) : State :=
  (s.writeRx 0 (d.take Config.maxFrame)).setRxLen (BitVec.ofNat 16 d.length)

/-- `ARRIVE(d)` in WAIT (R164): a valid frame with the outstanding sequence number matches (R165), anything else is
discarded and uses its slot up (R166). -/
def arrive (d : List Byte) (s : State) : State :=
  let s1 := s.capture d
  let v := decodeVerdict s1.rxView s1.rxLen.toNat
  let s2 := s1.takeSlot
  if v = .ok ∧ hdrSeq s2.rxView = s2.corrSeq then
    { s2 with ldec := .verdict .ok, corr := .matched, err := .none }
  else
    (s2.setLdec (if v = .ok then .seqMismatch else .verdict v)).timeoutIfSpent

/-- A datagram at the receive port: examined in WAIT, dropped without any effect elsewhere (R167). -/
def deliver (d : List Byte) (s : State) : State := if s.busy then arrive d s else s

/-- `EXPIRE` in WAIT (R169). -/
def expire (s : State) : State := s.takeSlot.timeoutIfSpent

/-- The slot timer's event: it takes no step outside WAIT (R160, R169; log 11). -/
def timerEvent (s : State) : State := if s.busy then expire s else s

end Sys2Proof.Machine
end

