-- ==== Sys2Proof/Machine/Dispatch.lean ====
section
/-!
DEFINITION. The meaning of each command of the opcode table (spec/30_encoding.md R94).
-/
namespace Sys2Proof.Machine

def exec (i : Instr) (s : State) : Host.Outcome State Fault Refusal :=
  match i with
  | .crcInit => Sys2Proof.Machine.execCrcInit s
  | .crcFeed => Sys2Proof.Machine.execCrcFeed s
  | .encode len => Sys2Proof.Machine.execEncode len s
  | .decode => Sys2Proof.Machine.execDecode s
  | .request => Sys2Proof.Machine.execRequest s

end Sys2Proof.Machine
end

