-- ==== Sys2Proof/Machine/Bus.lean ====
section
/-!
DEFINITION. The host's accesses to the register window (spec/20_memory.md §3) and the effect of a write to CMD
(spec/30_encoding.md R94).
-/
namespace Sys2Proof.Machine

/-- A word that matches no row of the opcode table: accepted like any command, its only effect is
`ERR <- ILLEGAL_CMD` (R82, R94). -/
def illegalCommand (s : State) : Result := gate s fun s => .next (s.raise .illegalCmd)

/-- `command_write(w)` (R94). -/
def commandWrite (w : Word) (s : State) : Result :=
  match Sys2Proof.decodeWord w with
  | .ok i => exec i s
  | .error _ => illegalCommand s

/-- `MemRead(off, 4)` (R55): no read has a side effect (R60). -/
def memRead (s : State) (off : BitVec 12) : Word :=
  match windowSlot off with
  | .cmd => 0
  | .status => s.status
  | .crcAcc => s.crcAcc
  | .crcDin => s.crcDin
  | .txLen => s.txLen.setWidth 32
  | .txSeq => s.txSeq.setWidth 32
  | .rxLen => s.rxLen.setWidth 32
  | .corrSeq => s.corrSeq.setWidth 32
  | .txBuf i => le32 s.txView i
  | .rxBuf i => le32 s.rxView i
  | .unmapped => 0

/-- `MemWrite(off, 4, v)` (R56): the receive side is locked while BUSY (R59); read-only registers and unmapped
offsets ignore the write (R57, R58). -/
def memWrite (off : BitVec 12) (v : Word) (s : State) : Result :=
  match windowSlot off with
  | .cmd => commandWrite v s
  | .status => .next s
  | .crcAcc => .next s
  | .crcDin => .next (s.setCrcDin v)
  | .txLen => .next s
  | .txSeq => .next s
  | .rxLen => .next (if s.busy then s else s.setRxLen (v.extractLsb' 0 16))
  | .corrSeq => .next s
  | .txBuf i => .next (s.writeTx i (bytes32 v))
  | .rxBuf i => .next (if s.busy then s else s.writeRx i (bytes32 v))
  | .unmapped => .next s

/-- A host read of any width and offset: inside the contract it returns a value to the host, outside it is refused by
name (R54). -/
def hostLoad (bytes : Nat) (off : BitVec 12) (s : State) : Result :=
  if accessInContract bytes off then .next (s.logRead (memRead s off))
  else .refused (.accessOutsideContract .read bytes off)

/-- A host write of any width and offset (R54, R56). -/
def hostStore (bytes : Nat) (off : BitVec 12) (v : Word) (s : State) : Result :=
  if accessInContract bytes off then memWrite off v s
  else .refused (.accessOutsideContract .write bytes off)

end Sys2Proof.Machine
end

