-- ==== Sys2Proof/Machine/Agents.lean ====
section
/-!
DEFINITION. One step of whichever agent moves next (spec/10_state.md R20, spec/20_memory.md R62): the host's
operation, a datagram, a slot expiry or reset; with nothing pending, the slot timer's fairness
(spec/42_correlator.md R174).
-/
namespace Sys2Proof.Machine

/-- The reset input (R220, R221): every element takes its reset value; the buffers keep their contents or are drawn
anew (log 7); `sent` is history and stays. The model's own fields other than the drawing's number are not the
block's and stay too (log 15). -/
def resetEvent (redraw : Bool) (s : State) : State :=
  { State.reset with
    tx := if redraw then [] else s.tx
    rx := if redraw then [] else s.rx
    bufferEpoch := if redraw then s.bufferEpoch + 1 else s.bufferEpoch
    sent := s.sent
    draws := s.draws
    pending := s.pending
    hostReads := s.hostReads }

/-- A datagram event: above 65535 bytes the network agent has no such step (R164, R203; log 12). -/
def networkEvent (d : List Byte) (s : State) : Result :=
  if Config.maxDatagram < d.length then .refused (.datagramTooLong d.length) else .next (deliver d s)

/-- The order after a poll that found BUSY = 1: the poll is repeated after the next step of another agent, the host's
own later operations stay behind it, and where no other agent's step is pending the slot timer's is next
(R93, R174; log 18). -/
def pollAgain : List Event → List Event
  | [] => [.slotExpiry, .host .waitIdle]
  | e :: rest => if e.isHost then .slotExpiry :: .host .waitIdle :: e :: rest else e :: .host .waitIdle :: rest

/-- One poll of `wait.idle`: read STATUS, and poll again unless bit 0 is 0 (R93). -/
def pollStatus (s : State) : State :=
  let s1 := s.logRead s.status
  if s.status.getLsbD 0 then s1.setPending (pollAgain s1.pending) else s1

/-- One operation of the host's program. -/
def hostEvent (op : HostOp) (s : State) : Result :=
  match op with
  | .load bytes off => hostLoad bytes off s
  | .store bytes off v => hostStore bytes off v s
  | .waitIdle => .next (pollStatus s)

/-- One event, as one atomic step (R62). -/
def takeEvent (e : Event) (s : State) : Result :=
  match e with
  | .host op => hostEvent op s
  | .datagram d => networkEvent d s
  | .slotExpiry => .next (timerEvent s)
  | .reset redraw => .next (resetEvent redraw s)

/-- The step of the machine: the first pending event; with nothing pending, the slot timer ends the slot in WAIT (R174;
log 3), and outside WAIT nothing happens (log 2). -/
def agentStep (s : State) : Result :=
  match s.pending with
  | [] => .next (timerEvent s)
  | e :: rest => takeEvent e (s.setPending rest)

end Sys2Proof.Machine
end

