-- ==== Sys2Proof/Machine/HostProgram.lean ====
section
/-!
DEFINITION. The host program syntax (spec/30_encoding.md R92) and its pseudo-instructions (R93), each the list of host
operations it expands to, as events that stand in a program's order.
-/
namespace Sys2Proof.Machine

/-- `st32 OFF, V`. -/
def st32 (off : BitVec 12) (v : Word) : Event := .host (.store 4 off v)

/-- `ld32 OFF -> name`; the value read is appended to `hostReads`. -/
def ld32 (off : BitVec 12) : Event := .host (.load 4 off)

/-- A command: a write of its word to CMD (R80, R92). R92 writes `frm.enc L` only for `L` in `[0, 65535]`; for a longer
`L` this is the write of the word of `L mod 65536` (DESIGN CHOICE, log 24). -/
def command (i : Instr) : Event := st32 0x000 (encodeWord i)

/-- `crc.word V` (R93). -/
def crcWordOps (v : Word) : List Event := [st32 0x00C v, command .crcFeed]

/-- `crc.words V0, V1, ...` (R93). -/
def crcWordsOps (vs : List Word) : List Event := command .crcInit :: vs.flatMap crcWordOps

/-- `wait.idle` (R93). -/
def waitIdleOp : Event := .host .waitIdle

/-- Consecutive 32-bit writes from offset `off` on, a natural number that does not wrap around (00_scope.md R13). A write
at 0x1000 or above is no access to the window and so no event of the block: the model's choice, DESIGN CHOICE, log 23. -/
def storeWords : Nat → List Word → List Event
  | _, [] => []
  | off, v :: vs =>
    if off < Config.windowBytes then st32 (BitVec.ofNat 12 off) v :: storeWords (off + 4) vs
    else storeWords (off + 4) vs

/-- `tx.load k, V0, V1, ...`: payload word `k` and onwards (R93). R93 bounds neither `k` nor the number of words; what
passes the window's end is no event (DESIGN CHOICE, log 23). -/
def txLoadOps (k : Nat) (vs : List Word) : List Event := storeWords (0x400 + 8 + 4 * k) vs

/-- `rx.load V0, V1, ...` (R93). What passes the window's end is no event (DESIGN CHOICE, log 23). -/
def rxLoadOps (vs : List Word) : List Event := storeWords 0x800 vs

/-- `xfer L` (R93), for the `L` in `[0, 65535]` of `frm.enc L` (R92); for a longer `L` it encodes `L mod 65536` bytes
(DESIGN CHOICE, log 24). -/
def xferOps (len : Nat) : List Event := [command (.encode len), command .request, waitIdleOp]

end Sys2Proof.Machine
end

