-- ==== Sys2Proof/Machine/Step.lean ====
section
/-!
DEFINITION. The machine's step, and where an instruction stands for its next step: the block fetches nothing
(spec/20_memory.md R65), so the next command is the host's next pending write to CMD.
-/
namespace Sys2Proof.Machine

/-- One step of the machine. -/
def step (s : State) : Host.Outcome State Fault Refusal := agentStep s

/-- `s` with the host's write of the command word to CMD as the very next event; nothing else changes (log 2). -/
def State.withFetchWord (s : State) (nbits w : Nat) : State :=
  s.setPending (st32 0x000 (BitVec.ofNat 32 (w % 2 ^ nbits)) :: s.pending)

end Sys2Proof.Machine
end

