-- ==== Sys2Proof/Safety.lean ====
section
/-!
DEFINITION. The terms claims use: the invariant of the block's reachable states, what the next step of a state is,
and when a run has ended (spec/70_reset_and_hazards.md R232).
-/
namespace Sys2Proof.Machine

/-- What holds in every state a run from reset reaches. -/
structure State.Inv (s : State) : Prop where
  /-- The buffers' memories are canonical and inside their 1024 bytes (R24, R25; log 6). -/
  txWf : s.tx.wf = true
  rxWf : s.rx.wf = true
  /-- A request that waits has a slot left (R160, R170). -/
  waitSlots : s.corr = .wait → s.slots ≠ 0
  /-- Before any request and after a timeout no slot is left (R32, R170). -/
  idleSlots : s.corr = .idle → s.slots = 0
  timeoutSlots : s.corr = .timeout → s.slots = 0
  /-- The matching datagram used a slot up (R164). -/
  matchedSlots : s.corr = .matched → s.slots ≠ 3
  /-- A waiting request consumed its frame and reported no error yet (R161). -/
  waitTxv : s.corr = .wait → s.txv = false
  waitErr : s.corr = .wait → s.err = .none
  /-- The outstanding number is the encoded frame's: no ENCODE runs during a wait (R161, R172). -/
  waitSeq : s.corr = .wait → s.corrSeq = s.txSeq
  /-- TX_LEN is 0 before the first ENCODE, afterwards the length of a frame that fits TX (R26, R133). -/
  txLenFits : s.txLen = 0 ∨ (12 ≤ s.txLen.toNat ∧ s.txLen.toNat ≤ 1024 ∧ s.txLen.toNat % 4 = 0)
  /-- A valid frame has been encoded (R28). -/
  txvLen : s.txv = true → s.txLen ≠ 0
  /-- Every datagram sent was one whole frame (R162). -/
  sentFrames : ∀ d ∈ s.sent, 12 ≤ d.length ∧ d.length ≤ 1024 ∧ d.length % 4 = 0
  /-- A command can be rejected only after some request was made (R30, R35, R94). -/
  rejAfterRequest : s.rej = true → s.corr ≠ .idle
  /-- ERR is TIMEOUT only where the last request timed out (R170, R192). -/
  errTimeout : s.err = .timeout → s.corr = .timeout
  /-- Only a datagram in WAIT reports SEQ_MISMATCH (R193). -/
  seqMismatchAfterRequest : s.ldec = .seqMismatch → s.corr ≠ .idle

/-- The next step is an accepted command `i`: the host's write of its word to CMD while BUSY = 0 (00_scope.md §6). -/
def State.NextRuns (s : State) (i : Instr) : Prop :=
  s.busy = false ∧ ∃ w rest, s.pending = st32 0x000 w :: rest ∧ decodeWord w = .ok i

/-- The next step is an accepted command, legal or not. -/
def State.NextAccepts (s : State) : Prop :=
  s.busy = false ∧ ∃ w rest, s.pending = st32 0x000 w :: rest

/-- The next step is a reset. -/
def State.NextResets (s : State) : Prop := ∃ redraw rest, s.pending = .reset redraw :: rest

/-- The next step is a write of the window word at `off`. -/
def State.NextStores (s : State) (off : BitVec 12) : Prop :=
  off.toNat % 4 = 0 ∧ ∃ v rest, s.pending = st32 off v :: rest

/-- The next step is a datagram that the network agent can deliver. -/
def State.NextArrives (s : State) (d : List Byte) : Prop :=
  d.length ≤ Config.maxDatagram ∧ ∃ rest, s.pending = .datagram d :: rest

/-- The event is an inbound datagram the network agent can deliver, or a slot expiry (R171). -/
def Event.isPolling : Event → Bool
  | .host _ => false
  | .datagram d => decide (d.length ≤ Config.maxDatagram)
  | .slotExpiry => true
  | .reset _ => false

/-- `n` steps, stopping at the first fault or refusal. -/
def runSteps : Nat → State → Result
  | 0, s => .next s
  | n + 1, s =>
    match step s with
    | .next t => runSteps n t
    | .fault r => .fault r
    | .refused r => .refused r

/-- A run has ended (R232): the host's program is done and no agent of the block has a pending step. -/
def State.Ended (s : State) : Prop := s.pending.all (fun e => !e.isHost) = true ∧ s.corr ≠ .wait

/-- The observable outcome of a run (R232): the register view, the buffers, the datagrams sent. -/
structure Observation where
  status : Word
  crcAcc : Word
  txLen : Half
  txSeq : Half
  rxLen : Half
  corrSeq : Half
  tx : List Byte
  rx : List Byte
  sent : List (List Byte)
  deriving DecidableEq, Repr

/-- What is observed of a state (R232). -/
def State.observe (s : State) : Observation where
  status := s.status
  crcAcc := s.crcAcc
  txLen := s.txLen
  txSeq := s.txSeq
  rxLen := s.rxLen
  corrSeq := s.corrSeq
  tx := slice s.txView 0 Config.maxFrame
  rx := slice s.rxView 0 Config.maxFrame
  sent := s.sent

/-- Change the next state of an outcome; a fault or a refusal stays. -/
def mapNext (f : State → State) : Result → Result
  | .next s => .next (f s)
  | .fault r => .fault r
  | .refused r => .refused r

/-- The host feeds one word: `crc.word V` as two window writes in a row (R93). -/
def feedWord (v : Word) (s : State) : Result :=
  match memWrite 0x00C v s with
  | .next s' => memWrite 0x000 0x00000002 s'
  | .fault r => .fault r
  | .refused r => .refused r

/-- The host feeds a word stream (R115, R117). -/
def feedWords : List Word → State → Result
  | [], s => .next s
  | v :: vs, s =>
    match feedWord v s with
    | .next s' => feedWords vs s'
    | .fault r => .fault r
    | .refused r => .refused r

end Sys2Proof.Machine
end

