-- ==== Sys2Proof/Certificates/Slice0/Obligations.lean ====
section
/-!
DEFINITION. The statements for the provers. Each docstring names the rule of spec/ it formalises. A record equation
`exec i s = .next { s with … }` is also the frame: every field it does not name is unchanged, every byte of TX and RX
among them where neither `tx`, `rx` nor `bufferEpoch` is named.
-/
open Sys2Proof Sys2Proof.Machine

/-! ## Encoding -/

/-- 30_encoding.md R80, R81, R83: decoding an instruction's own command word gives it back, every operand included. -/
def Obligations.DecodeInvertsEncode : Prop :=
  ∀ i : Instr, i.wf = true → decodeWord (encodeWord i) = .ok i

/-- R81, R82: every legal word is the command word of the instruction it decodes to, so no legal word has a spare bit. -/
def Obligations.EncodeInvertsDecode : Prop :=
  ∀ (w : Word) (i : Instr), decodeWord w = .ok i → i.wf = true ∧ encodeWord i = w

/-- R81: a word selects a mnemonic if and only if its masked bits are the row's pattern, and at most one row matches. -/
def Obligations.WordsSelectTableRows : Prop :=
  ∀ w : Word,
    (decodeWord w = .ok .crcInit ↔ w &&& 0xFFFFFFFF = 0x00000001) ∧
    (decodeWord w = .ok .crcFeed ↔ w &&& 0xFFFFFFFF = 0x00000002) ∧
    ((∃ len, decodeWord w = .ok (.encode len)) ↔ w &&& 0x0000FFFF = 0x00000003) ∧
    (∀ len, decodeWord w = .ok (.encode len) → len = (w >>> 16).toNat) ∧
    (decodeWord w = .ok .decode ↔ w &&& 0xFFFFFFFF = 0x00000004) ∧
    (decodeWord w = .ok .request ↔ w &&& 0xFFFFFFFF = 0x00000005) ∧
    (opcodeTable.filter (·.selects w)).length ≤ 1

/-- R82: the three kinds of illegal word, the exact split into legal and illegal words, and the only effect of an
accepted illegal command: ERR and REJ. -/
def Obligations.IllegalWordsOnlyReport : Prop :=
  ∀ w : Word,
    ((∃ e, decodeWord w = .error e) ↔
      (opField w = 0 ∨ 0x06 ≤ (opField w).toNat) ∨ rsvField w ≠ 0 ∨ (immField w ≠ 0 ∧ opField w ≠ 0x03)) ∧
    ((∃ i, decodeWord w = .ok i) ↔
      w = 1 ∨ w = 2 ∨ w = 4 ∨ w = 5 ∨ ∃ len : BitVec 16, w = (len.setWidth 32 <<< 16) ||| 3) ∧
    (∀ (e : DecodeError) (s : State), decodeWord w = .error e → s.busy = false →
      commandWrite w s = .next { s with err := .illegalCmd, rej := false }) ∧
    ErrCode.illegalCmd.code = 5

/-- R81, R92 and 95_test_vectors.md: command words written out from the encoding decode to their instructions. -/
def Obligations.ListedWordsDecode : Prop :=
  decodeWord 0x00000001 = .ok .crcInit ∧ decodeWord 0x00000002 = .ok .crcFeed ∧
  decodeWord 0x00000003 = .ok (.encode 0) ∧ decodeWord 0x00040003 = .ok (.encode 4) ∧
  decodeWord 0x02080003 = .ok (.encode 520) ∧ decodeWord 0x03F40003 = .ok (.encode 1012) ∧
  decodeWord 0xFFFF0003 = .ok (.encode 65535) ∧
  decodeWord 0x00000004 = .ok .decode ∧ decodeWord 0x00000005 = .ok .request ∧
  decodeWord 0x00000000 = .error (.unknownOpcode 0x00) ∧ decodeWord 0x000000FF = .error (.unknownOpcode 0xFF) ∧
  decodeWord 0x00000103 = .error (.reservedNotZero 0x01) ∧ decodeWord 0x00010001 = .error (.immediateNotZero 0x0001)

/-! ## The checksum engine -/

/-- 40_crc.md R113: CRC_INIT's word, its effect, its rejection while BUSY, its illegal forms, and that it is idempotent. -/
def Obligations.CrcInitStartsChecksum : Prop :=
  decodeWord 0x00000001 = .ok .crcInit ∧
  ∀ s : State,
    (s.busy = false → exec .crcInit s = .next { s with crcAcc := 0xFFFFFFFF, err := .none, rej := false }) ∧
    (s.busy = true → exec .crcInit s = .next { s with rej := true }) ∧
    (∀ w, opField w = 0x01 → rsvField w ≠ 0 ∨ immField w ≠ 0 → s.busy = false →
      commandWrite w s = .next { s with err := .illegalCmd, rej := false }) ∧
    (∀ t, exec .crcInit s = .next t → exec .crcInit t = .next t)

/-- 40_crc.md R114: CRC_FEED's word, its effect (CRC_DIN keeps its value), its rejection while BUSY, its illegal forms,
and its corner cases. -/
def Obligations.CrcFeedProcessesOneWord : Prop :=
  decodeWord 0x00000002 = .ok .crcFeed ∧
  (∀ s : State,
    (s.busy = false →
      exec .crcFeed s = .next { s with crcAcc := crcWord s.crcAcc s.crcDin, err := .none, rej := false }) ∧
    (s.busy = true → exec .crcFeed s = .next { s with rej := true }) ∧
    (∀ w, opField w = 0x02 → rsvField w ≠ 0 ∨ immField w ≠ 0 → s.busy = false →
      commandWrite w s = .next { s with err := .illegalCmd, rej := false })) ∧
  (∀ c, crcWord c c = 0) ∧ crcWord 0 0 = 0 ∧ crcWord 0xFFFFFFFF 0x00000000 = 0xC704DD7B

/-- R115 (the spec marks it derived): CRC_INIT and then one CRC_FEED per word leaves the stream's checksum in CRC_ACC, and so do the feeds alone
from the reset value; CRC_DIN holds the last word and nothing else changes but ERR and REJ. -/
def Obligations.FeedsAccumulateChecksum : Prop :=
  ∀ (s : State) (ws : List Word), s.busy = false →
    (∃ t, exec .crcInit s = .next t ∧
      feedWords ws t = .next { s with
        crcAcc := checksum ws, crcDin := ws.getLastD s.crcDin, err := .none, rej := false }) ∧
    (s.crcAcc = 0xFFFFFFFF → ∃ t, feedWords ws s = .next t ∧ t.crcAcc = checksum ws)

/-- R116 (the spec marks it "derived: from rule R110 and rule R111"): the five algebraic laws of `checksum`. -/
def Obligations.ChecksumLaws : Prop :=
  checksum [] = 0xFFFFFFFF ∧
  (∀ xs ys, checksum (xs ++ ys) = ys.foldl crcWord (checksum xs)) ∧
  ((∀ c, crcWord c c = 0) ∧ ∀ xs, checksum (xs ++ [checksum xs]) = 0) ∧
  checksum [0xFFFFFFFF] = 0 ∧
  ∀ c1 c2 w1 w2, crcWord (c1 ^^^ c2) (w1 ^^^ w2) = crcWord c1 w1 ^^^ crcWord c2 w2

/-- R119 (the spec marks it derived, from its law 5 and general knowledge of CRC algebra): no single-bit flip of a covered word leaves the checksum as it was. -/
def Obligations.BitFlipChangesChecksum : Prop :=
  ∀ (ws : List Word) (j b : Nat), j < ws.length → b < 32 →
    checksum (ws.set j (ws.getD j 0 ^^^ BitVec.twoPow 32 b)) ≠ checksum ws

/-- R120: ENCODE and DECODE neither read nor write CRC_ACC: with any other value in it they do the same. -/
def Obligations.FrameCommandsIgnoreCrcAcc : Prop :=
  ∀ (s : State) (c : Word),
    (∀ len, exec (.encode len) (s.setCrcAcc c) = mapNext (·.setCrcAcc c) (exec (.encode len) s)) ∧
    exec .decode (s.setCrcAcc c) = mapNext (·.setCrcAcc c) (exec .decode s)

/-! ## The frame codec -/

/-- 41_frame_codec.md R130, R131, R132: ENCODE leaves in `TX[0..12+P)` the frame `encode_frame` builds from the staged
payload and the drawn sequence number, every other byte of TX as it was, and writes TX_LEN, TX_SEQ, TXV and ERR. It
holds for every value of the draw; that the draw is `Config.seqDraw s.draws` and `draws` counts up is the model's form of
the spec's free input (log 4). -/
def Obligations.EncodeBuildsFrameInPlace : Prop :=
  ∀ (s : State) (len : Nat), s.busy = false → len ≤ 1012 →
    ∃ m : Memory,
      exec (.encode len) s = .next { s with
        tx := m, txLen := BitVec.ofNat 16 (12 + pad4 len), txSeq := Config.seqDraw s.draws, txv := true,
        err := .none, rej := false, draws := s.draws + 1 } ∧
      ∀ i, State.txView { s with tx := m } i =
        if i < 12 + pad4 len then
          (encodeFrame (slice s.txView 8 (8 + len)) (Config.seqDraw s.draws)).getD i 0
        else s.txView i

/-- R133: ENCODE above 1012 bytes reports code 6, clears TXV and writes nothing else; the bound is what makes a frame
fit the buffer. For lengths of 65536 and above, which no command word encodes (R83), the same is the model's choice
(log 20). -/
def Obligations.OverlongEncodeClearsTxv : Prop :=
  (∀ (s : State) (len : Nat), s.busy = false → 1012 < len →
    exec (.encode len) s = .next { s with txv := false, err := .encodeTooLong, rej := false }) ∧
  ErrCode.encodeTooLong.code = 6 ∧ ∀ len, len ≤ 1012 → 12 + pad4 len ≤ 1024

/-- 30_encoding.md R84: the layout of the frame the encoder builds, byte by byte. -/
def Obligations.EncodedFrameLayout : Prop :=
  ∀ (p : List Byte) (seq : Half), p.length < 65536 →
    let f := encodeFrame p seq
    f.length = 12 + pad4 p.length ∧
    f.take 4 = [0x4C, 0x48, 0x46, 0x00] ∧
    (f.drop 4).take 2 = bytes16 seq ∧
    (f.drop 6).take 2 = bytes16 (BitVec.ofNat 16 p.length) ∧
    (f.drop 8).take p.length = p ∧
    (f.drop (8 + p.length)).take (pad4 p.length - p.length) = List.replicate (pad4 p.length - p.length) 0 ∧
    f.drop (8 + pad4 p.length) = bytes32 (checksum (words (viewOf f) 0 (pad4 p.length / 4 + 2)))

/-- 41_frame_codec.md R142 (the spec marks it derived): a payload of a multiple of 4 bytes that fits the buffer comes back from its frame. -/
def Obligations.EncodedFrameRoundTrips : Prop :=
  ∀ (p : List Byte) (seq : Half), p.length % 4 = 0 → p.length ≤ 1012 →
    let f := encodeFrame p seq
    decodeVerdict (viewOf f) f.length = .ok ∧ hdrSeq (viewOf f) = seq ∧ hdrLen (viewOf f) = p.length ∧
    slice (viewOf f) 8 (8 + p.length) = p

/-- R143 (the spec marks it derived): an encoded frame decodes OK if and only if its payload length is a multiple of 4; otherwise the decoder
reports LENGTH_MISMATCH. -/
def Obligations.OnlyAlignedFramesDecode : Prop :=
  ∀ (p : List Byte) (seq : Half), p.length ≤ 1012 →
    decodeVerdict (viewOf (encodeFrame p seq)) (encodeFrame p seq).length =
      if p.length % 4 = 0 then .ok else .lengthMismatch

/-- R141: DECODE writes the verdict on RX and RX_LEN to LDEC and, under the same number, to ERR, and nothing else. -/
def Obligations.DecodeReportsVerdict : Prop :=
  ∀ s : State,
    (s.busy = false →
      exec .decode s = .next { s with
        ldec := .verdict (decodeVerdict s.rxView s.rxLen.toNat)
        err := (decodeVerdict s.rxView s.rxLen.toNat).err
        rej := false }) ∧
    ∀ v : Verdict, v.err.code = v.code.setWidth 4

/-- R134 (and 60_exceptions.md R195): the verdict is the first failing check in the order bounds, preamble, length,
checksum; the verdicts' numbers; every byte read lies inside the received length. -/
def Obligations.VerdictIsFirstFailingCheck : Prop :=
  ∀ (B : View) (n : Nat),
    let inBounds := 8 ≤ n ∧ n ≤ 1024
    let preamble := le16 B 0 = 0x484C
    let length := (le16 B 6).toNat + 12 = n
    let trailer := le32 B (8 + (le16 B 6).toNat) = checksum (words B 0 ((le16 B 6).toNat / 4 + 2))
    (decodeVerdict B n = .badPreamble ↔ inBounds ∧ ¬preamble) ∧
    (decodeVerdict B n = .lengthMismatch ↔ ¬inBounds ∨ (preamble ∧ ¬length)) ∧
    (decodeVerdict B n = .checksumMismatch ↔ inBounds ∧ preamble ∧ length ∧ ¬trailer) ∧
    (decodeVerdict B n = .ok ↔ inBounds ∧ preamble ∧ length ∧ trailer) ∧
    (∀ B' : View, (∀ i, i < n → B i = B' i) → decodeVerdict B n = decodeVerdict B' n) ∧
    (Verdict.ok.code = 0 ∧ Verdict.badPreamble.code = 1 ∧ Verdict.lengthMismatch.code = 2 ∧
      Verdict.checksumMismatch.code = 3)

/-- R144 (the spec marks it derived): the payload bytes beyond the last whole word are in no checksum word and do not change the verdict. -/
def Obligations.UncoveredBytesDoNotMatter : Prop :=
  ∀ (B B' : View) (n : Nat), hdrLen B + 12 = n →
    (∀ i, i < n → ¬(8 + 4 * (hdrLen B / 4) ≤ i ∧ i < 8 + hdrLen B) → B i = B' i) →
    decodeVerdict B n = decodeVerdict B' n

/-- R145, which the spec marks derived. (1): a frame whose preamble is flipped is rejected as BAD_PREAMBLE, whatever its checksum; (3): a flip of
one bit of a covered byte outside preamble and length, or any change of the trailer, gives CHECKSUM_MISMATCH. -/
def Obligations.DamagedFrameRejected : Prop :=
  ∀ (B B' : View) (n : Nat), decodeVerdict B n = .ok →
    (le16 B' 0 ≠ le16 B 0 → decodeVerdict B' n = .badPreamble) ∧
    ((∃ k b, b < 8 ∧ (2 ≤ k ∧ k < 8 + 4 * (hdrLen B / 4) ∧ k ≠ 6 ∧ k ≠ 7) ∧
        B' k = B k ^^^ BitVec.twoPow 8 b ∧ ∀ i, i ≠ k → B' i = B i) →
      decodeVerdict B' n = .checksumMismatch) ∧
    ((∀ i, i < 8 + hdrLen B → B' i = B i) → le32 B' (8 + hdrLen B) ≠ le32 B (8 + hdrLen B) →
      decodeVerdict B' n = .checksumMismatch)

/-! ## The correlator -/

/-- 42_correlator.md R161, R162: REQUEST with a valid frame emits exactly `TX[0..TX_LEN)` once and enters WAIT with three
slots. TX_LEN fits the buffer in every state a run reaches (`StepKeepsInvariant`; log 8). -/
def Obligations.RequestSendsFrameAndWaits : Prop :=
  ∀ s : State, s.busy = false → s.txv = true → s.txLen.toNat ≤ 1024 →
    exec .request s = .next { s with
      sent := s.sent ++ [slice s.txView 0 s.txLen.toNat], corrSeq := s.txSeq, slots := 3, corr := .wait,
      txv := false, err := .none, rej := false }

/-- R163: REQUEST with TXV = 0 emits nothing and only reports NOT_ENCODED, code 7. -/
def Obligations.RequestWithoutFrameReports : Prop :=
  (∀ s : State, s.busy = false → s.txv = false →
    exec .request s = .next { s with err := .notEncoded, rej := false }) ∧
  ErrCode.notEncoded.code = 7

/-- REQUEST with a valid frame longer than TX stops by name: the bytes to emit do not exist (R24). No run reaches such a
TX_LEN (`StepKeepsInvariant`); the stop is the model's choice (log 8). -/
def Obligations.RequestBeyondBufferFaults : Prop :=
  ∀ s : State, s.busy = false → s.txv = true → 1024 < s.txLen.toNat → exec .request s = .fault .txLenBeyondBuffer

/-- R165, R164, R160: a datagram in WAIT completes the request if and only if it decodes OK and carries the outstanding sequence
number; the frame is then in RX and BUSY falls in the same step. A match takes its slot like every other datagram and
changes nothing else: TXV, CORR_SEQ, REJ and every byte of RX beyond the datagram stay. -/
def Obligations.MatchIsValidAndCorrelated : Prop :=
  ∀ (s : State) (d : List Byte), s.busy = true → s.NextArrives d →
    ∃ t, step s = .next t ∧
      (t.corr = .matched ↔ decodeVerdict (viewOf d) d.length = .ok ∧ hdrSeq (viewOf d) = s.corrSeq) ∧
      (t.corr = .matched →
        t.busy = false ∧ t.err = .none ∧ t.ldec = .verdict .ok ∧ t.rxLen.toNat = d.length ∧
        slice t.rxView 0 d.length = d ∧
        slice t.rxView 8 (8 + hdrLen t.rxView) = (d.drop 8).take (hdrLen (viewOf d)) ∧
        (s.slots ≠ 0 → t.slots.val + 1 = s.slots.val) ∧
        t = { s with
          rx := t.rx, rxLen := BitVec.ofNat 16 d.length, slots := t.slots, ldec := .verdict .ok, corr := .matched,
          err := .none, pending := t.pending } ∧
        s.pending = .datagram d :: t.pending ∧
        ∀ i, t.rxView i = if i < min d.length 1024 then d.getD i 0 else s.rxView i)

/-- R164, R166, R170: every datagram in WAIT is stored, takes one slot and, unless it matches, records why it was
discarded; the last slot ends the request with TIMEOUT. Nothing else changes. A waiting request has a slot left in
every state a run reaches (`StepKeepsInvariant`; log 9). -/
def Obligations.DiscardedDatagramUsesSlot : Prop :=
  ∀ (s : State) (d : List Byte), s.busy = true → s.slots ≠ 0 → s.NextArrives d →
    ¬(decodeVerdict (viewOf d) d.length = .ok ∧ hdrSeq (viewOf d) = s.corrSeq) →
    ∃ t, step s = .next t ∧
      t = { s with
        rx := t.rx, rxLen := BitVec.ofNat 16 d.length, slots := t.slots, ldec := t.ldec, corr := t.corr,
        err := t.err, pending := t.pending } ∧
      s.pending = .datagram d :: t.pending ∧
      (∀ i, t.rxView i = if i < min d.length 1024 then d.getD i 0 else s.rxView i) ∧
      t.slots.val + 1 = s.slots.val ∧
      t.ldec = (if decodeVerdict (viewOf d) d.length = .ok then .seqMismatch
        else .verdict (decodeVerdict (viewOf d) d.length)) ∧
      (t.slots ≠ 0 → t.corr = .wait ∧ t.err = s.err) ∧
      (t.slots = 0 → t.corr = .timeout ∧ t.err = .timeout)

/-- R167: a datagram outside WAIT changes no state. -/
def Obligations.DatagramOutsideWaitDropped : Prop :=
  ∀ (s : State) (d : List Byte) (rest : List Event), s.busy = false → d.length ≤ 65535 →
    s.pending = .datagram d :: rest → step s = .next { s with pending := rest }

/-- R168: of a datagram longer than 1024 bytes only the first 1024 are stored and RX_LEN records its true length; it and
a runt are LENGTH_MISMATCH and use a slot up. -/
def Obligations.OversizeAndRuntDatagrams : Prop :=
  ∀ (s : State) (d : List Byte), s.busy = true → s.slots ≠ 0 → s.NextArrives d →
    1024 < d.length ∨ d.length < 8 →
    ∃ t, step s = .next t ∧ t.ldec = .verdict .lengthMismatch ∧ t.rxLen.toNat = d.length ∧
      t.slots.val + 1 = s.slots.val ∧ t.corr ≠ .matched ∧
      (∀ i, i < min d.length 1024 → t.rxView i = d.getD i 0) ∧
      (1024 < d.length → slice t.rxView 0 1024 = d.take 1024)

/-- R169, R170: a slot expiry in WAIT takes one slot, and the last one ends the request with TIMEOUT, code 4; no buffer
and no LDEC changes. -/
def Obligations.SlotExpiryTakesSlot : Prop :=
  (∀ (s : State) (rest : List Event), s.busy = true → s.slots ≠ 0 → s.pending = .slotExpiry :: rest →
    (s.slots.val = 1 →
      step s = .next { s with slots := 0, corr := .timeout, err := .timeout, pending := rest }) ∧
    (∀ k : Fin 4, k ≠ 0 → s.slots.val = k.val + 1 → step s = .next { s with slots := k, pending := rest })) ∧
  ErrCode.timeout.code = 4

/-- R171 (the spec marks it derived): whatever three arrivals or expiries follow, the request is over after them. -/
def Obligations.ThreePollingEventsEndWait : Prop :=
  ∀ (s : State) (es rest : List Event), es.length = 3 → es.all Event.isPolling = true → s.pending = es ++ rest →
    ∃ t, runSteps 3 s = .next t ∧ t.busy = false ∧ t.pending = rest

/-- R174: where no other agent has a step pending, the slot timer's expiries end the wait within three steps. -/
def Obligations.FairTimerEndsWait : Prop :=
  ∀ s : State, s.pending = [] → ∃ n t, n ≤ 3 ∧ runSteps n s = .next t ∧ t.busy = false ∧ t.pending = []

/-- 30_encoding.md R93: `wait.idle` ends, with BUSY = 0 read in bit 0 of the last poll of STATUS, whatever stands behind
it, a datagram that cannot occur (R203) apart. Of what stands behind it only other agents' events, at most three and from
the front, happen before it has ended; the host's later operations and all else are still to come, in their order. How
the polls interleave with the timer and the other agents is the model's choice (log 18). -/
def Obligations.WaitIdleEnds : Prop :=
  ∀ (s : State) (rest : List Event), s.pending = waitIdleOp :: rest →
    (∀ d, Event.datagram d ∈ rest → d.length ≤ 65535) →
    ∃ n k t, n ≤ 7 ∧ k ≤ 3 ∧ runSteps n s = .next t ∧ t.busy = false ∧ t.pending = rest.drop k ∧
      (rest.take k).all (fun e => !e.isHost) = true ∧ (t.hostReads.getLastD 1).getLsbD 0 = false

/-- R94, R172: while a request is outstanding every command word, legal or not, is rejected: REJ is set and nothing
else changes. -/
def Obligations.BusyRejectsEveryCommand : Prop :=
  ∀ s : State, s.busy = true →
    (∀ w, commandWrite w s = .next { s with rej := true }) ∧ ∀ i, exec i s = .next { s with rej := true }

/-- R196: both orders of the last slot's expiry and a matching datagram are executions, and they end differently. -/
def Obligations.TieBreakDecidesOutcome : Prop :=
  ∀ (s : State) (d : List Byte), s.busy = true → s.slots = 1 →
    decodeVerdict (viewOf d) d.length = .ok → hdrSeq (viewOf d) = s.corrSeq →
    (∃ t, runSteps 2 { s with pending := [.datagram d, .slotExpiry] } = .next t ∧ t.corr = .matched ∧ t.err = .none) ∧
    (runSteps 2 { s with pending := [.slotExpiry, .datagram d] } =
      .next { s with slots := 0, corr := .timeout, err := .timeout, pending := [] })

/-! ## The register window -/

/-- 20_memory.md R55: what a read of every offset returns to the host; it has no side effect on the block. -/
def Obligations.WindowReads : Prop :=
  (∀ (s : State) (off : BitVec 12) (rest : List Event), off.toNat % 4 = 0 → s.pending = ld32 off :: rest →
    step s = .next { s with pending := rest, hostReads := s.hostReads ++ [memRead s off] }) ∧
  ∀ s : State,
    memRead s 0x000 = 0 ∧ memRead s 0x004 = s.status ∧ memRead s 0x008 = s.crcAcc ∧ memRead s 0x00C = s.crcDin ∧
    memRead s 0x010 = s.txLen.setWidth 32 ∧ memRead s 0x014 = s.txSeq.setWidth 32 ∧
    memRead s 0x018 = s.rxLen.setWidth 32 ∧ memRead s 0x01C = s.corrSeq.setWidth 32 ∧
    ∀ off : BitVec 12, off.toNat % 4 = 0 →
      (0x400 ≤ off.toNat → off.toNat ≤ 0x7FC → memRead s off = le32 s.txView (off.toNat - 0x400)) ∧
      (0x800 ≤ off.toNat → off.toNat ≤ 0xBFC → memRead s off = le32 s.rxView (off.toNat - 0x800)) ∧
      ((0x020 ≤ off.toNat ∧ off.toNat ≤ 0x3FC) ∨ 0xC00 ≤ off.toNat → memRead s off = 0) ∧
      ∀ es rs, memRead { s with pending := es, hostReads := rs } off = memRead s off

/-- R56: what a write to every offset does. -/
def Obligations.WindowWrites : Prop :=
  (∀ (s : State) (off : BitVec 12) (v : Word) (rest : List Event), off.toNat % 4 = 0 →
    s.pending = st32 off v :: rest → step s = memWrite off v { s with pending := rest }) ∧
  ∀ (s : State) (v : Word),
    memWrite 0x000 v s = commandWrite v s ∧
    memWrite 0x00C v s = .next { s with crcDin := v } ∧
    (s.busy = false → memWrite 0x018 v s = .next { s with rxLen := v.extractLsb' 0 16 }) ∧
    (s.busy = true → memWrite 0x018 v s = .next s) ∧
    ∀ off : BitVec 12, off.toNat % 4 = 0 →
      (0x400 ≤ off.toNat → off.toNat ≤ 0x7FC → ∃ m : Memory, memWrite off v s = .next { s with tx := m } ∧
        ∀ i, State.txView { s with tx := m } i =
          if off.toNat - 0x400 ≤ i ∧ i < off.toNat - 0x400 + 4 then (bytes32 v).getD (i - (off.toNat - 0x400)) 0
          else s.txView i) ∧
      (0x800 ≤ off.toNat → off.toNat ≤ 0xBFC → s.busy = false →
        ∃ m : Memory, memWrite off v s = .next { s with rx := m } ∧
          ∀ i, State.rxView { s with rx := m } i =
            if off.toNat - 0x800 ≤ i ∧ i < off.toNat - 0x800 + 4 then (bytes32 v).getD (i - (off.toNat - 0x800)) 0
            else s.rxView i) ∧
      (0x800 ≤ off.toNat → off.toNat ≤ 0xBFC → s.busy = true → memWrite off v s = .next s) ∧
      (off = 0x004 ∨ off = 0x008 ∨ off = 0x010 ∨ off = 0x014 ∨ off = 0x01C ∨
          (0x020 ≤ off.toNat ∧ off.toNat ≤ 0x3FC) ∨ 0xC00 ≤ off.toNat →
        memWrite off v s = .next s)

/-- R57, R58: unmapped offsets and read-only registers ignore writes, unmapped offsets and CMD read 0, and the reserved
bits read 0. -/
def Obligations.ReservedReadZeroIgnoreWrites : Prop :=
  ∀ (s : State) (v : Word),
    (∀ off : BitVec 12, (0x020 ≤ off.toNat ∧ off.toNat ≤ 0x3FC) ∨ 0xC00 ≤ off.toNat →
      memRead s off = 0 ∧ memWrite off v s = .next s) ∧
    (memWrite 0x004 v s = .next s ∧ memWrite 0x008 v s = .next s ∧ memWrite 0x010 v s = .next s ∧
      memWrite 0x014 v s = .next s ∧ memWrite 0x01C v s = .next s) ∧
    (∀ rest, step { s with pending := ld32 0x000 :: rest } =
      .next { s with pending := rest, hostReads := s.hostReads ++ [0] }) ∧
    ((memRead s 0x004).getLsbD 3 = false ∧ (memRead s 0x004).extractLsb' 15 17 = 0) ∧
    (memRead s 0x010).extractLsb' 16 16 = 0 ∧ (memRead s 0x014).extractLsb' 16 16 = 0 ∧
    (memRead s 0x018).extractLsb' 16 16 = 0 ∧ (memRead s 0x01C).extractLsb' 16 16 = 0

/-- R59: while BUSY = 1 the receive side ignores the host's writes and can still be read, and TX_BUF stays writable. -/
def Obligations.ReceiveSideLockedWhileBusy : Prop :=
  ∀ (s : State) (v : Word) (k : Nat), s.busy = true → k < 256 →
    memWrite 0x018 v s = .next s ∧
    memWrite (BitVec.ofNat 12 (0x800 + 4 * k)) v s = .next s ∧
    memRead s 0x018 = s.rxLen.setWidth 32 ∧
    memRead s (BitVec.ofNat 12 (0x800 + 4 * k)) = le32 s.rxView (4 * k) ∧
    ∃ m : Memory, memWrite (BitVec.ofNat 12 (0x400 + 4 * k)) v s = .next { s with tx := m } ∧
      le32 (State.txView { s with tx := m }) (4 * k) = v

/-- R52, R61: a word stored in TX_BUF, or in RX_BUF while BUSY = 0, reads back as one word, and every other word of the
window reads as before. -/
def Obligations.StoredBufferWordReadsBack : Prop :=
  ∀ (s : State) (off : BitVec 12) (v : Word), off.toNat % 4 = 0 →
    (0x400 ≤ off.toNat ∧ off.toNat < 0x800) ∨ (0x800 ≤ off.toNat ∧ off.toNat < 0xC00 ∧ s.busy = false) →
    ∃ t, memWrite off v s = .next t ∧ memRead t off = v ∧
      ∀ off' : BitVec 12, off'.toNat % 4 = 0 → off' ≠ off → memRead t off' = memRead s off'

/-- R54: an access of another width or at an offset that is not a multiple of 4 is refused by name. -/
def Obligations.NarrowOrMisalignedRefused : Prop :=
  ∀ (s : State) (bytes : Nat) (off : BitVec 12) (v : Word) (rest : List Event), bytes ≠ 4 ∨ off.toNat % 4 ≠ 0 →
    (s.pending = .host (.load bytes off) :: rest → step s = .refused (.accessOutsideContract .read bytes off)) ∧
    (s.pending = .host (.store bytes off v) :: rest → step s = .refused (.accessOutsideContract .write bytes off))

/-- 10_state.md R39 (the spec marks it derived from R28 to R36): the fields of STATUS, its reserved bits, that a read has
no side effect, that a write is ignored, and its reset value; BUSY is CORR = WAIT (R36); and the numbers of CORR (R30),
LDEC (R193) and ERR (R191). -/
def Obligations.StatusLayout : Prop :=
  ((∀ s : State, s.busy = true ↔ s.corr = .wait) ∧
    (CorrState.idle.code = 0 ∧ CorrState.wait.code = 1 ∧ CorrState.matched.code = 2 ∧ CorrState.timeout.code = 3) ∧
    ((LastDecode.verdict .ok).code = 0 ∧ (LastDecode.verdict .badPreamble).code = 1 ∧
      (LastDecode.verdict .lengthMismatch).code = 2 ∧ (LastDecode.verdict .checksumMismatch).code = 3 ∧
      LastDecode.seqMismatch.code = 4) ∧
    (ErrCode.none.code = 0 ∧ ErrCode.badPreamble.code = 1 ∧ ErrCode.lengthMismatch.code = 2 ∧
      ErrCode.checksumMismatch.code = 3 ∧ ErrCode.timeout.code = 4 ∧ ErrCode.illegalCmd.code = 5 ∧
      ErrCode.encodeTooLong.code = 6 ∧ ErrCode.notEncoded.code = 7)) ∧
  (∀ (s : State) (v : Word),
    s.status.getLsbD 0 = s.busy ∧ s.status.getLsbD 1 = s.txv ∧ s.status.getLsbD 2 = s.rej ∧
    s.status.getLsbD 3 = false ∧
    s.status.extractLsb' 4 4 = s.err.code ∧ s.status.extractLsb' 8 2 = s.corr.code ∧
    s.status.extractLsb' 10 2 = BitVec.ofNat 2 s.slots.val ∧ s.status.extractLsb' 12 3 = s.ldec.code ∧
    s.status.extractLsb' 15 17 = 0 ∧
    memRead s 0x004 = s.status ∧ memWrite 0x004 v s = .next s ∧
    ∀ rest, step { s with pending := ld32 0x004 :: rest } =
      .next { s with pending := rest, hostReads := s.hostReads ++ [s.status] }) ∧
  State.reset.status = 0x00000000

/-- R53 (the spec marks it derived): buffer word 0 is preamble and command, word 1 sequence and length, as the checksum engine and the host see
them; a frame the encoder builds has word 0 0x0046484C. -/
def Obligations.HeaderIsTwoWords : Prop :=
  (∀ B : View,
    le32 B 0 = (hdrPreamble B).setWidth 32 ||| ((hdrCommand B).setWidth 32 <<< 16) ∧
    le32 B 4 = (hdrSeq B).setWidth 32 ||| ((le16 B 6).setWidth 32 <<< 16) ∧
    words B 0 2 = [le32 B 0, le32 B 4]) ∧
  (∀ s : State, memRead s 0x400 = le32 s.txView 0 ∧ memRead s 0x404 = le32 s.txView 4 ∧
    memRead s 0x800 = le32 s.rxView 0 ∧ memRead s 0x804 = le32 s.rxView 4) ∧
  ∀ p seq, le32 (viewOf (encodeFrame p seq)) 0 = 0x0046484C

/-- R50, R10: exactly the 4096 bus addresses from BASE on select the window, each its own offset, whatever BASE is. -/
def Obligations.BusAddressSelectsOffset : Prop :=
  (∀ off : BitVec 12, windowOffset (busAddress off) = some off) ∧
  ∀ addr, (windowOffset addr = none ↔ addr < Config.base ∨ Config.base + 0x1000 ≤ addr) ∧
    ∀ off, windowOffset addr = some off → addr = busAddress off

/-! ## Whole-machine rules -/

/-- 10_state.md R22: only CRC_INIT, CRC_FEED and reset change CRC_ACC. -/
def Obligations.OnlyCrcCommandsWriteCrcAcc : Prop :=
  ∀ s t : State, step s = .next t → t.crcAcc ≠ s.crcAcc →
    s.NextRuns .crcInit ∨ s.NextRuns .crcFeed ∨ s.NextResets

/-- R23: only the host's write to CRC_DIN and reset change it; no command does. -/
def Obligations.OnlyHostWritesCrcDin : Prop :=
  ∀ s t : State, step s = .next t → t.crcDin ≠ s.crcDin → s.NextStores 0x00C ∨ s.NextResets

/-- R26, R27: only a successful ENCODE and reset change TX_LEN and TX_SEQ. -/
def Obligations.OnlyEncodeWritesFrameRegisters : Prop :=
  ∀ s t : State, step s = .next t → (t.txLen ≠ s.txLen ∨ t.txSeq ≠ s.txSeq) →
    (∃ len, len ≤ 1012 ∧ s.NextRuns (.encode len)) ∨ s.NextResets

/-- R40, R162: a step emits at most one datagram, and only an accepted REQUEST with TXV = 1 emits: the frame
`TX[0..TX_LEN)`, appended to what was sent before. Nothing recalls a datagram. -/
def Obligations.OnlyRequestEmits : Prop :=
  ∀ s t : State, step s = .next t →
    t.sent = s.sent ∨
      (s.NextRuns .request ∧ s.txv = true ∧ t.sent = s.sent ++ [slice s.txView 0 s.txLen.toNat])

/-- R24, R131: a byte of TX changes only under the host's write of its word, an ENCODE whose header, padding or trailer
covers it, or reset; ENCODE leaves the staged payload alone. -/
def Obligations.TxByteWriters : Prop :=
  ∀ (s t : State) (i : Nat), step s = .next t → t.txView i ≠ s.txView i →
    (∃ off, s.NextStores off ∧ off.toNat = 0x400 + 4 * (i / 4) ∧ i < 1024) ∨
    (∃ len, s.NextRuns (.encode len) ∧ len ≤ 1012 ∧ i < 12 + pad4 len ∧ ¬(8 ≤ i ∧ i < 8 + len)) ∨
    s.NextResets

/-- R25, R59: a byte of RX changes only under the host's write of its word while BUSY = 0, a datagram in WAIT that covers
it, or reset. -/
def Obligations.RxByteWriters : Prop :=
  ∀ (s t : State) (i : Nat), step s = .next t → t.rxView i ≠ s.rxView i →
    (s.busy = false ∧ ∃ off, s.NextStores off ∧ off.toNat = 0x800 + 4 * (i / 4) ∧ i < 1024) ∨
    (s.busy = true ∧ ∃ d, s.NextArrives d ∧ i < d.length ∧ i < 1024) ∨
    s.NextResets

/-- R30, R160: the correlator changes its state only by the transitions of R160's table. -/
def Obligations.CorrelatorTransitions : Prop :=
  ∀ s t : State, step s = .next t → t.corr ≠ s.corr →
    (s.corr ≠ .wait ∧ s.NextRuns .request ∧ s.txv = true ∧ t.corr = .wait) ∨
    (s.corr = .wait ∧ (∃ d, s.NextArrives d) ∧ (t.corr = .matched ∨ (t.corr = .timeout ∧ t.slots = 0))) ∨
    (s.corr = .wait ∧ (s.pending = [] ∨ ∃ rest, s.pending = .slotExpiry :: rest) ∧ t.corr = .timeout ∧ t.slots = 0) ∨
    (s.NextResets ∧ t.corr = .idle)

/-- 60_exceptions.md R197: ERR lasts until the next accepted command or the end of a wait, LDEC until the next DECODE or
datagram in WAIT, REJ until the next accepted command once set, and reset clears all three. REJ rises only under a write
to CMD while BUSY = 1 (10_state.md R35, 30_encoding.md R94). -/
def Obligations.ErrorReportsLast : Prop :=
  ∀ s t : State, step s = .next t →
    (t.err ≠ s.err → s.NextAccepts ∨ (s.busy = true ∧ t.busy = false) ∨ s.NextResets) ∧
    (t.ldec ≠ s.ldec → s.NextRuns .decode ∨ (s.busy = true ∧ ∃ d, s.NextArrives d) ∨ s.NextResets) ∧
    (s.rej = true → t.rej = false → s.NextAccepts ∨ s.NextResets) ∧
    (s.rej = false → t.rej = true → s.busy = true ∧ ∃ w rest, s.pending = st32 0x000 w :: rest) ∧
    (s.NextResets → t.err = .none ∧ t.ldec = .verdict .ok ∧ t.rej = false)

/-- R59, R94, R172: during a wait no operation of the host's can end the wait or change anything but TX, CRC_DIN, REJ and
what the host itself has read and still has to do. -/
def Obligations.WaitShieldsBlockFromHost : Prop :=
  ∀ (s t : State) (op : HostOp) (rest : List Event), s.busy = true → s.pending = .host op :: rest →
    step s = .next t →
    { t with tx := s.tx, crcDin := s.crcDin, rej := s.rej, pending := s.pending, hostReads := s.hostReads } = s

/-- The invariant of 10_state.md and 42_correlator.md (`State.Inv`) is kept by every step of every agent. -/
def Obligations.StepKeepsInvariant : Prop :=
  ∀ s t : State, s.Inv → step s = .next t → t.Inv

/-- The state after reset meets the invariant. -/
def Obligations.ResetMeetsInvariant : Prop := State.reset.Inv

/-- 60_exceptions.md R203: the block has no fault state: no step faults, and a step is refused only for an access
outside the contract or a datagram above 65535 bytes. -/
def Obligations.NoFaultFromInvariant : Prop :=
  ∀ s : State, s.Inv →
    (∃ t, step s = .next t) ∨
    (∃ bytes off rest, (bytes ≠ 4 ∨ off.toNat % 4 ≠ 0) ∧
      (s.pending = .host (.load bytes off) :: rest ∨ ∃ v, s.pending = .host (.store bytes off v) :: rest)) ∨
    ∃ d rest, 65535 < d.length ∧ s.pending = .datagram d :: rest

/-! ## Reset and the step -/

/-- 70_reset_and_hazards.md R220: what power-on reset leaves in every element, each buffer byte its draw; and that a later
reset leaves the same in every element but `sent`, which is history, and the buffers, which keep their contents or are
drawn anew. The reset values are R220's; that the event says whether both buffers together are kept or drawn anew (log 7)
and that the model's own `draws`, `pending` and `hostReads` stay (log 15) are the model's choices. -/
def Obligations.ResetValues : Prop :=
  (let z := State.reset;
    z.crcAcc = 0xFFFFFFFF ∧ z.crcDin = 0 ∧ z.txLen = 0 ∧ z.txSeq = 0 ∧ z.rxLen = 0 ∧ z.corrSeq = 0 ∧
    z.txv = false ∧ z.rej = false ∧ z.corr = .idle ∧ z.busy = false ∧ z.slots = 0 ∧
    z.err = .none ∧ z.ldec = .verdict .ok ∧ z.err.code = 0 ∧ z.ldec.code = 0 ∧ z.sent = [] ∧
    (∀ i, z.txView i = Config.txDraw 0 i ∧ z.rxView i = Config.rxDraw 0 i) ∧
    memRead z 0x004 = 0x00000000 ∧ memRead z 0x008 = 0xFFFFFFFF) ∧
  ∀ (s : State) (redraw : Bool) (rest : List Event), s.pending = .reset redraw :: rest →
    ∃ t, step s = .next t ∧
      t = { State.reset with
        tx := t.tx, rx := t.rx, bufferEpoch := t.bufferEpoch, sent := s.sent, draws := s.draws, pending := rest,
        hostReads := s.hostReads } ∧
      (∀ i, t.txView i = if redraw then Config.txDraw (s.bufferEpoch + 1) i else s.txView i) ∧
      (∀ i, t.rxView i = if redraw then Config.rxDraw (s.bufferEpoch + 1) i else s.rxView i) ∧
      memRead t 0x004 = 0x00000000 ∧ memRead t 0x008 = 0xFFFFFFFF

/-- R221: a reset during a wait ends it at once: the correlator is idle, nothing more is emitted, and a datagram arriving
next changes nothing. -/
def Obligations.ResetEndsWait : Prop :=
  ∀ (s : State) (redraw : Bool) (d : List Byte) (rest : List Event), s.busy = true → d.length ≤ 65535 →
    s.pending = .reset redraw :: .datagram d :: rest →
    ∃ t, step s = .next t ∧ t.corr = .idle ∧ t.busy = false ∧ t.sent = s.sent ∧
      step t = .next { t with pending := rest }

/-- 30_encoding.md R94: when the next event is the host's write of a word to CMD, the step is the meaning of the
instruction the word decodes to, or the illegal command's effect; the step adds only that the event is consumed. -/
def Obligations.StepRunsDecodedCommand : Prop :=
  ∀ (s : State) (w : Word) (rest : List Event), s.pending = st32 0x000 w :: rest →
    (∀ i, decodeWord w = .ok i → step s = exec i { s with pending := rest }) ∧
    (∀ e, decodeWord w = .error e → step s = illegalCommand { s with pending := rest })

/-- A word placed by `withFetchWord` is the very next command, and the state it runs on is the given one (log 2). -/
def Obligations.PlacedWordRunsNext : Prop :=
  ∀ (s : State) (w : Word), step (s.withFetchWord 32 w.toNat) = commandWrite w s

/-- 70_reset_and_hazards.md R232: once a run has ended, datagrams and expiries that still come, or nothing at all, leave
its observable outcome as it is. That with nothing pending the step answers the same state is the model's choice (log 2). -/
def Obligations.EndedRunKeepsOutcome : Prop :=
  ∀ s : State, s.Ended → s.pending.all Event.isPolling = true →
    (∀ n, ∃ t, runSteps n s = .next t ∧ t.Ended ∧ t.observe = s.observe) ∧ (s.pending = [] → step s = .next s)

/-- 60_exceptions.md R203: a datagram longer than 65535 bytes is no step of the network agent; the model refuses it
(log 12). -/
def Obligations.ImpossibleDatagramRefused : Prop :=
  ∀ (s : State) (d : List Byte) (rest : List Event), 65535 < d.length → s.pending = .datagram d :: rest →
    step s = .refused (.datagramTooLong d.length)
end

