-- ==== Sys2Proof/Laws/State.lean ====
section
/-!
SUPPORT. One lemma per field of State per named update: what the update leaves there. Each is true by `rfl`, so no
proof unfolds a record update.
-/
namespace Sys2Proof.Machine

/-! `State.writeTx` -/

@[simp] theorem State.crcAcc_writeTx (s : State) (a : Nat) (bs : List Byte) : (s.writeTx a bs).crcAcc = s.crcAcc := rfl
@[simp] theorem State.crcDin_writeTx (s : State) (a : Nat) (bs : List Byte) : (s.writeTx a bs).crcDin = s.crcDin := rfl
@[simp] theorem State.tx_writeTx (s : State) (a : Nat) (bs : List Byte) : (s.writeTx a bs).tx = s.tx.writeBytes a bs := rfl
@[simp] theorem State.rx_writeTx (s : State) (a : Nat) (bs : List Byte) : (s.writeTx a bs).rx = s.rx := rfl
@[simp] theorem State.txLen_writeTx (s : State) (a : Nat) (bs : List Byte) : (s.writeTx a bs).txLen = s.txLen := rfl
@[simp] theorem State.txSeq_writeTx (s : State) (a : Nat) (bs : List Byte) : (s.writeTx a bs).txSeq = s.txSeq := rfl
@[simp] theorem State.txv_writeTx (s : State) (a : Nat) (bs : List Byte) : (s.writeTx a bs).txv = s.txv := rfl
@[simp] theorem State.rxLen_writeTx (s : State) (a : Nat) (bs : List Byte) : (s.writeTx a bs).rxLen = s.rxLen := rfl
@[simp] theorem State.corr_writeTx (s : State) (a : Nat) (bs : List Byte) : (s.writeTx a bs).corr = s.corr := rfl
@[simp] theorem State.corrSeq_writeTx (s : State) (a : Nat) (bs : List Byte) : (s.writeTx a bs).corrSeq = s.corrSeq := rfl
@[simp] theorem State.slots_writeTx (s : State) (a : Nat) (bs : List Byte) : (s.writeTx a bs).slots = s.slots := rfl
@[simp] theorem State.err_writeTx (s : State) (a : Nat) (bs : List Byte) : (s.writeTx a bs).err = s.err := rfl
@[simp] theorem State.ldec_writeTx (s : State) (a : Nat) (bs : List Byte) : (s.writeTx a bs).ldec = s.ldec := rfl
@[simp] theorem State.rej_writeTx (s : State) (a : Nat) (bs : List Byte) : (s.writeTx a bs).rej = s.rej := rfl
@[simp] theorem State.sent_writeTx (s : State) (a : Nat) (bs : List Byte) : (s.writeTx a bs).sent = s.sent := rfl
@[simp] theorem State.draws_writeTx (s : State) (a : Nat) (bs : List Byte) : (s.writeTx a bs).draws = s.draws := rfl
@[simp] theorem State.bufferEpoch_writeTx (s : State) (a : Nat) (bs : List Byte) : (s.writeTx a bs).bufferEpoch = s.bufferEpoch := rfl
@[simp] theorem State.pending_writeTx (s : State) (a : Nat) (bs : List Byte) : (s.writeTx a bs).pending = s.pending := rfl
@[simp] theorem State.hostReads_writeTx (s : State) (a : Nat) (bs : List Byte) : (s.writeTx a bs).hostReads = s.hostReads := rfl
@[simp] theorem State.rxView_writeTx (s : State) (a : Nat) (bs : List Byte) : (s.writeTx a bs).rxView = s.rxView := rfl
@[simp] theorem State.busy_writeTx (s : State) (a : Nat) (bs : List Byte) : (s.writeTx a bs).busy = s.busy := by
  simp only [State.busy, State.corr_writeTx]

/-! `State.writeRx` -/

@[simp] theorem State.crcAcc_writeRx (s : State) (a : Nat) (bs : List Byte) : (s.writeRx a bs).crcAcc = s.crcAcc := rfl
@[simp] theorem State.crcDin_writeRx (s : State) (a : Nat) (bs : List Byte) : (s.writeRx a bs).crcDin = s.crcDin := rfl
@[simp] theorem State.tx_writeRx (s : State) (a : Nat) (bs : List Byte) : (s.writeRx a bs).tx = s.tx := rfl
@[simp] theorem State.rx_writeRx (s : State) (a : Nat) (bs : List Byte) : (s.writeRx a bs).rx = s.rx.writeBytes a bs := rfl
@[simp] theorem State.txLen_writeRx (s : State) (a : Nat) (bs : List Byte) : (s.writeRx a bs).txLen = s.txLen := rfl
@[simp] theorem State.txSeq_writeRx (s : State) (a : Nat) (bs : List Byte) : (s.writeRx a bs).txSeq = s.txSeq := rfl
@[simp] theorem State.txv_writeRx (s : State) (a : Nat) (bs : List Byte) : (s.writeRx a bs).txv = s.txv := rfl
@[simp] theorem State.rxLen_writeRx (s : State) (a : Nat) (bs : List Byte) : (s.writeRx a bs).rxLen = s.rxLen := rfl
@[simp] theorem State.corr_writeRx (s : State) (a : Nat) (bs : List Byte) : (s.writeRx a bs).corr = s.corr := rfl
@[simp] theorem State.corrSeq_writeRx (s : State) (a : Nat) (bs : List Byte) : (s.writeRx a bs).corrSeq = s.corrSeq := rfl
@[simp] theorem State.slots_writeRx (s : State) (a : Nat) (bs : List Byte) : (s.writeRx a bs).slots = s.slots := rfl
@[simp] theorem State.err_writeRx (s : State) (a : Nat) (bs : List Byte) : (s.writeRx a bs).err = s.err := rfl
@[simp] theorem State.ldec_writeRx (s : State) (a : Nat) (bs : List Byte) : (s.writeRx a bs).ldec = s.ldec := rfl
@[simp] theorem State.rej_writeRx (s : State) (a : Nat) (bs : List Byte) : (s.writeRx a bs).rej = s.rej := rfl
@[simp] theorem State.sent_writeRx (s : State) (a : Nat) (bs : List Byte) : (s.writeRx a bs).sent = s.sent := rfl
@[simp] theorem State.draws_writeRx (s : State) (a : Nat) (bs : List Byte) : (s.writeRx a bs).draws = s.draws := rfl
@[simp] theorem State.bufferEpoch_writeRx (s : State) (a : Nat) (bs : List Byte) : (s.writeRx a bs).bufferEpoch = s.bufferEpoch := rfl
@[simp] theorem State.pending_writeRx (s : State) (a : Nat) (bs : List Byte) : (s.writeRx a bs).pending = s.pending := rfl
@[simp] theorem State.hostReads_writeRx (s : State) (a : Nat) (bs : List Byte) : (s.writeRx a bs).hostReads = s.hostReads := rfl
@[simp] theorem State.txView_writeRx (s : State) (a : Nat) (bs : List Byte) : (s.writeRx a bs).txView = s.txView := rfl
@[simp] theorem State.busy_writeRx (s : State) (a : Nat) (bs : List Byte) : (s.writeRx a bs).busy = s.busy := by
  simp only [State.busy, State.corr_writeRx]

/-! `State.setCrcAcc` -/

@[simp] theorem State.crcAcc_setCrcAcc (s : State) (v : Word) : (s.setCrcAcc v).crcAcc = v := rfl
@[simp] theorem State.crcDin_setCrcAcc (s : State) (v : Word) : (s.setCrcAcc v).crcDin = s.crcDin := rfl
@[simp] theorem State.tx_setCrcAcc (s : State) (v : Word) : (s.setCrcAcc v).tx = s.tx := rfl
@[simp] theorem State.rx_setCrcAcc (s : State) (v : Word) : (s.setCrcAcc v).rx = s.rx := rfl
@[simp] theorem State.txLen_setCrcAcc (s : State) (v : Word) : (s.setCrcAcc v).txLen = s.txLen := rfl
@[simp] theorem State.txSeq_setCrcAcc (s : State) (v : Word) : (s.setCrcAcc v).txSeq = s.txSeq := rfl
@[simp] theorem State.txv_setCrcAcc (s : State) (v : Word) : (s.setCrcAcc v).txv = s.txv := rfl
@[simp] theorem State.rxLen_setCrcAcc (s : State) (v : Word) : (s.setCrcAcc v).rxLen = s.rxLen := rfl
@[simp] theorem State.corr_setCrcAcc (s : State) (v : Word) : (s.setCrcAcc v).corr = s.corr := rfl
@[simp] theorem State.corrSeq_setCrcAcc (s : State) (v : Word) : (s.setCrcAcc v).corrSeq = s.corrSeq := rfl
@[simp] theorem State.slots_setCrcAcc (s : State) (v : Word) : (s.setCrcAcc v).slots = s.slots := rfl
@[simp] theorem State.err_setCrcAcc (s : State) (v : Word) : (s.setCrcAcc v).err = s.err := rfl
@[simp] theorem State.ldec_setCrcAcc (s : State) (v : Word) : (s.setCrcAcc v).ldec = s.ldec := rfl
@[simp] theorem State.rej_setCrcAcc (s : State) (v : Word) : (s.setCrcAcc v).rej = s.rej := rfl
@[simp] theorem State.sent_setCrcAcc (s : State) (v : Word) : (s.setCrcAcc v).sent = s.sent := rfl
@[simp] theorem State.draws_setCrcAcc (s : State) (v : Word) : (s.setCrcAcc v).draws = s.draws := rfl
@[simp] theorem State.bufferEpoch_setCrcAcc (s : State) (v : Word) : (s.setCrcAcc v).bufferEpoch = s.bufferEpoch := rfl
@[simp] theorem State.pending_setCrcAcc (s : State) (v : Word) : (s.setCrcAcc v).pending = s.pending := rfl
@[simp] theorem State.hostReads_setCrcAcc (s : State) (v : Word) : (s.setCrcAcc v).hostReads = s.hostReads := rfl
@[simp] theorem State.txView_setCrcAcc (s : State) (v : Word) : (s.setCrcAcc v).txView = s.txView := rfl
@[simp] theorem State.rxView_setCrcAcc (s : State) (v : Word) : (s.setCrcAcc v).rxView = s.rxView := rfl
@[simp] theorem State.busy_setCrcAcc (s : State) (v : Word) : (s.setCrcAcc v).busy = s.busy := by
  simp only [State.busy, State.corr_setCrcAcc]

/-! `State.setCrcDin` -/

@[simp] theorem State.crcAcc_setCrcDin (s : State) (v : Word) : (s.setCrcDin v).crcAcc = s.crcAcc := rfl
@[simp] theorem State.crcDin_setCrcDin (s : State) (v : Word) : (s.setCrcDin v).crcDin = v := rfl
@[simp] theorem State.tx_setCrcDin (s : State) (v : Word) : (s.setCrcDin v).tx = s.tx := rfl
@[simp] theorem State.rx_setCrcDin (s : State) (v : Word) : (s.setCrcDin v).rx = s.rx := rfl
@[simp] theorem State.txLen_setCrcDin (s : State) (v : Word) : (s.setCrcDin v).txLen = s.txLen := rfl
@[simp] theorem State.txSeq_setCrcDin (s : State) (v : Word) : (s.setCrcDin v).txSeq = s.txSeq := rfl
@[simp] theorem State.txv_setCrcDin (s : State) (v : Word) : (s.setCrcDin v).txv = s.txv := rfl
@[simp] theorem State.rxLen_setCrcDin (s : State) (v : Word) : (s.setCrcDin v).rxLen = s.rxLen := rfl
@[simp] theorem State.corr_setCrcDin (s : State) (v : Word) : (s.setCrcDin v).corr = s.corr := rfl
@[simp] theorem State.corrSeq_setCrcDin (s : State) (v : Word) : (s.setCrcDin v).corrSeq = s.corrSeq := rfl
@[simp] theorem State.slots_setCrcDin (s : State) (v : Word) : (s.setCrcDin v).slots = s.slots := rfl
@[simp] theorem State.err_setCrcDin (s : State) (v : Word) : (s.setCrcDin v).err = s.err := rfl
@[simp] theorem State.ldec_setCrcDin (s : State) (v : Word) : (s.setCrcDin v).ldec = s.ldec := rfl
@[simp] theorem State.rej_setCrcDin (s : State) (v : Word) : (s.setCrcDin v).rej = s.rej := rfl
@[simp] theorem State.sent_setCrcDin (s : State) (v : Word) : (s.setCrcDin v).sent = s.sent := rfl
@[simp] theorem State.draws_setCrcDin (s : State) (v : Word) : (s.setCrcDin v).draws = s.draws := rfl
@[simp] theorem State.bufferEpoch_setCrcDin (s : State) (v : Word) : (s.setCrcDin v).bufferEpoch = s.bufferEpoch := rfl
@[simp] theorem State.pending_setCrcDin (s : State) (v : Word) : (s.setCrcDin v).pending = s.pending := rfl
@[simp] theorem State.hostReads_setCrcDin (s : State) (v : Word) : (s.setCrcDin v).hostReads = s.hostReads := rfl
@[simp] theorem State.txView_setCrcDin (s : State) (v : Word) : (s.setCrcDin v).txView = s.txView := rfl
@[simp] theorem State.rxView_setCrcDin (s : State) (v : Word) : (s.setCrcDin v).rxView = s.rxView := rfl
@[simp] theorem State.busy_setCrcDin (s : State) (v : Word) : (s.setCrcDin v).busy = s.busy := by
  simp only [State.busy, State.corr_setCrcDin]

/-! `State.setRxLen` -/

@[simp] theorem State.crcAcc_setRxLen (s : State) (n : Half) : (s.setRxLen n).crcAcc = s.crcAcc := rfl
@[simp] theorem State.crcDin_setRxLen (s : State) (n : Half) : (s.setRxLen n).crcDin = s.crcDin := rfl
@[simp] theorem State.tx_setRxLen (s : State) (n : Half) : (s.setRxLen n).tx = s.tx := rfl
@[simp] theorem State.rx_setRxLen (s : State) (n : Half) : (s.setRxLen n).rx = s.rx := rfl
@[simp] theorem State.txLen_setRxLen (s : State) (n : Half) : (s.setRxLen n).txLen = s.txLen := rfl
@[simp] theorem State.txSeq_setRxLen (s : State) (n : Half) : (s.setRxLen n).txSeq = s.txSeq := rfl
@[simp] theorem State.txv_setRxLen (s : State) (n : Half) : (s.setRxLen n).txv = s.txv := rfl
@[simp] theorem State.rxLen_setRxLen (s : State) (n : Half) : (s.setRxLen n).rxLen = n := rfl
@[simp] theorem State.corr_setRxLen (s : State) (n : Half) : (s.setRxLen n).corr = s.corr := rfl
@[simp] theorem State.corrSeq_setRxLen (s : State) (n : Half) : (s.setRxLen n).corrSeq = s.corrSeq := rfl
@[simp] theorem State.slots_setRxLen (s : State) (n : Half) : (s.setRxLen n).slots = s.slots := rfl
@[simp] theorem State.err_setRxLen (s : State) (n : Half) : (s.setRxLen n).err = s.err := rfl
@[simp] theorem State.ldec_setRxLen (s : State) (n : Half) : (s.setRxLen n).ldec = s.ldec := rfl
@[simp] theorem State.rej_setRxLen (s : State) (n : Half) : (s.setRxLen n).rej = s.rej := rfl
@[simp] theorem State.sent_setRxLen (s : State) (n : Half) : (s.setRxLen n).sent = s.sent := rfl
@[simp] theorem State.draws_setRxLen (s : State) (n : Half) : (s.setRxLen n).draws = s.draws := rfl
@[simp] theorem State.bufferEpoch_setRxLen (s : State) (n : Half) : (s.setRxLen n).bufferEpoch = s.bufferEpoch := rfl
@[simp] theorem State.pending_setRxLen (s : State) (n : Half) : (s.setRxLen n).pending = s.pending := rfl
@[simp] theorem State.hostReads_setRxLen (s : State) (n : Half) : (s.setRxLen n).hostReads = s.hostReads := rfl
@[simp] theorem State.txView_setRxLen (s : State) (n : Half) : (s.setRxLen n).txView = s.txView := rfl
@[simp] theorem State.rxView_setRxLen (s : State) (n : Half) : (s.setRxLen n).rxView = s.rxView := rfl
@[simp] theorem State.busy_setRxLen (s : State) (n : Half) : (s.setRxLen n).busy = s.busy := by
  simp only [State.busy, State.corr_setRxLen]

/-! `State.setTxv` -/

@[simp] theorem State.crcAcc_setTxv (s : State) (b : Bool) : (s.setTxv b).crcAcc = s.crcAcc := rfl
@[simp] theorem State.crcDin_setTxv (s : State) (b : Bool) : (s.setTxv b).crcDin = s.crcDin := rfl
@[simp] theorem State.tx_setTxv (s : State) (b : Bool) : (s.setTxv b).tx = s.tx := rfl
@[simp] theorem State.rx_setTxv (s : State) (b : Bool) : (s.setTxv b).rx = s.rx := rfl
@[simp] theorem State.txLen_setTxv (s : State) (b : Bool) : (s.setTxv b).txLen = s.txLen := rfl
@[simp] theorem State.txSeq_setTxv (s : State) (b : Bool) : (s.setTxv b).txSeq = s.txSeq := rfl
@[simp] theorem State.txv_setTxv (s : State) (b : Bool) : (s.setTxv b).txv = b := rfl
@[simp] theorem State.rxLen_setTxv (s : State) (b : Bool) : (s.setTxv b).rxLen = s.rxLen := rfl
@[simp] theorem State.corr_setTxv (s : State) (b : Bool) : (s.setTxv b).corr = s.corr := rfl
@[simp] theorem State.corrSeq_setTxv (s : State) (b : Bool) : (s.setTxv b).corrSeq = s.corrSeq := rfl
@[simp] theorem State.slots_setTxv (s : State) (b : Bool) : (s.setTxv b).slots = s.slots := rfl
@[simp] theorem State.err_setTxv (s : State) (b : Bool) : (s.setTxv b).err = s.err := rfl
@[simp] theorem State.ldec_setTxv (s : State) (b : Bool) : (s.setTxv b).ldec = s.ldec := rfl
@[simp] theorem State.rej_setTxv (s : State) (b : Bool) : (s.setTxv b).rej = s.rej := rfl
@[simp] theorem State.sent_setTxv (s : State) (b : Bool) : (s.setTxv b).sent = s.sent := rfl
@[simp] theorem State.draws_setTxv (s : State) (b : Bool) : (s.setTxv b).draws = s.draws := rfl
@[simp] theorem State.bufferEpoch_setTxv (s : State) (b : Bool) : (s.setTxv b).bufferEpoch = s.bufferEpoch := rfl
@[simp] theorem State.pending_setTxv (s : State) (b : Bool) : (s.setTxv b).pending = s.pending := rfl
@[simp] theorem State.hostReads_setTxv (s : State) (b : Bool) : (s.setTxv b).hostReads = s.hostReads := rfl
@[simp] theorem State.txView_setTxv (s : State) (b : Bool) : (s.setTxv b).txView = s.txView := rfl
@[simp] theorem State.rxView_setTxv (s : State) (b : Bool) : (s.setTxv b).rxView = s.rxView := rfl
@[simp] theorem State.busy_setTxv (s : State) (b : Bool) : (s.setTxv b).busy = s.busy := by
  simp only [State.busy, State.corr_setTxv]

/-! `State.setLdec` -/

@[simp] theorem State.crcAcc_setLdec (s : State) (d : LastDecode) : (s.setLdec d).crcAcc = s.crcAcc := rfl
@[simp] theorem State.crcDin_setLdec (s : State) (d : LastDecode) : (s.setLdec d).crcDin = s.crcDin := rfl
@[simp] theorem State.tx_setLdec (s : State) (d : LastDecode) : (s.setLdec d).tx = s.tx := rfl
@[simp] theorem State.rx_setLdec (s : State) (d : LastDecode) : (s.setLdec d).rx = s.rx := rfl
@[simp] theorem State.txLen_setLdec (s : State) (d : LastDecode) : (s.setLdec d).txLen = s.txLen := rfl
@[simp] theorem State.txSeq_setLdec (s : State) (d : LastDecode) : (s.setLdec d).txSeq = s.txSeq := rfl
@[simp] theorem State.txv_setLdec (s : State) (d : LastDecode) : (s.setLdec d).txv = s.txv := rfl
@[simp] theorem State.rxLen_setLdec (s : State) (d : LastDecode) : (s.setLdec d).rxLen = s.rxLen := rfl
@[simp] theorem State.corr_setLdec (s : State) (d : LastDecode) : (s.setLdec d).corr = s.corr := rfl
@[simp] theorem State.corrSeq_setLdec (s : State) (d : LastDecode) : (s.setLdec d).corrSeq = s.corrSeq := rfl
@[simp] theorem State.slots_setLdec (s : State) (d : LastDecode) : (s.setLdec d).slots = s.slots := rfl
@[simp] theorem State.err_setLdec (s : State) (d : LastDecode) : (s.setLdec d).err = s.err := rfl
@[simp] theorem State.ldec_setLdec (s : State) (d : LastDecode) : (s.setLdec d).ldec = d := rfl
@[simp] theorem State.rej_setLdec (s : State) (d : LastDecode) : (s.setLdec d).rej = s.rej := rfl
@[simp] theorem State.sent_setLdec (s : State) (d : LastDecode) : (s.setLdec d).sent = s.sent := rfl
@[simp] theorem State.draws_setLdec (s : State) (d : LastDecode) : (s.setLdec d).draws = s.draws := rfl
@[simp] theorem State.bufferEpoch_setLdec (s : State) (d : LastDecode) : (s.setLdec d).bufferEpoch = s.bufferEpoch := rfl
@[simp] theorem State.pending_setLdec (s : State) (d : LastDecode) : (s.setLdec d).pending = s.pending := rfl
@[simp] theorem State.hostReads_setLdec (s : State) (d : LastDecode) : (s.setLdec d).hostReads = s.hostReads := rfl
@[simp] theorem State.txView_setLdec (s : State) (d : LastDecode) : (s.setLdec d).txView = s.txView := rfl
@[simp] theorem State.rxView_setLdec (s : State) (d : LastDecode) : (s.setLdec d).rxView = s.rxView := rfl
@[simp] theorem State.busy_setLdec (s : State) (d : LastDecode) : (s.setLdec d).busy = s.busy := by
  simp only [State.busy, State.corr_setLdec]

/-! `State.raise` -/

@[simp] theorem State.crcAcc_raise (s : State) (e : ErrCode) : (s.raise e).crcAcc = s.crcAcc := rfl
@[simp] theorem State.crcDin_raise (s : State) (e : ErrCode) : (s.raise e).crcDin = s.crcDin := rfl
@[simp] theorem State.tx_raise (s : State) (e : ErrCode) : (s.raise e).tx = s.tx := rfl
@[simp] theorem State.rx_raise (s : State) (e : ErrCode) : (s.raise e).rx = s.rx := rfl
@[simp] theorem State.txLen_raise (s : State) (e : ErrCode) : (s.raise e).txLen = s.txLen := rfl
@[simp] theorem State.txSeq_raise (s : State) (e : ErrCode) : (s.raise e).txSeq = s.txSeq := rfl
@[simp] theorem State.txv_raise (s : State) (e : ErrCode) : (s.raise e).txv = s.txv := rfl
@[simp] theorem State.rxLen_raise (s : State) (e : ErrCode) : (s.raise e).rxLen = s.rxLen := rfl
@[simp] theorem State.corr_raise (s : State) (e : ErrCode) : (s.raise e).corr = s.corr := rfl
@[simp] theorem State.corrSeq_raise (s : State) (e : ErrCode) : (s.raise e).corrSeq = s.corrSeq := rfl
@[simp] theorem State.slots_raise (s : State) (e : ErrCode) : (s.raise e).slots = s.slots := rfl
@[simp] theorem State.err_raise (s : State) (e : ErrCode) : (s.raise e).err = e := rfl
@[simp] theorem State.ldec_raise (s : State) (e : ErrCode) : (s.raise e).ldec = s.ldec := rfl
@[simp] theorem State.rej_raise (s : State) (e : ErrCode) : (s.raise e).rej = s.rej := rfl
@[simp] theorem State.sent_raise (s : State) (e : ErrCode) : (s.raise e).sent = s.sent := rfl
@[simp] theorem State.draws_raise (s : State) (e : ErrCode) : (s.raise e).draws = s.draws := rfl
@[simp] theorem State.bufferEpoch_raise (s : State) (e : ErrCode) : (s.raise e).bufferEpoch = s.bufferEpoch := rfl
@[simp] theorem State.pending_raise (s : State) (e : ErrCode) : (s.raise e).pending = s.pending := rfl
@[simp] theorem State.hostReads_raise (s : State) (e : ErrCode) : (s.raise e).hostReads = s.hostReads := rfl
@[simp] theorem State.txView_raise (s : State) (e : ErrCode) : (s.raise e).txView = s.txView := rfl
@[simp] theorem State.rxView_raise (s : State) (e : ErrCode) : (s.raise e).rxView = s.rxView := rfl
@[simp] theorem State.busy_raise (s : State) (e : ErrCode) : (s.raise e).busy = s.busy := by
  simp only [State.busy, State.corr_raise]

/-! `State.countDraw` -/

@[simp] theorem State.crcAcc_countDraw (s : State) : s.countDraw.crcAcc = s.crcAcc := rfl
@[simp] theorem State.crcDin_countDraw (s : State) : s.countDraw.crcDin = s.crcDin := rfl
@[simp] theorem State.tx_countDraw (s : State) : s.countDraw.tx = s.tx := rfl
@[simp] theorem State.rx_countDraw (s : State) : s.countDraw.rx = s.rx := rfl
@[simp] theorem State.txLen_countDraw (s : State) : s.countDraw.txLen = s.txLen := rfl
@[simp] theorem State.txSeq_countDraw (s : State) : s.countDraw.txSeq = s.txSeq := rfl
@[simp] theorem State.txv_countDraw (s : State) : s.countDraw.txv = s.txv := rfl
@[simp] theorem State.rxLen_countDraw (s : State) : s.countDraw.rxLen = s.rxLen := rfl
@[simp] theorem State.corr_countDraw (s : State) : s.countDraw.corr = s.corr := rfl
@[simp] theorem State.corrSeq_countDraw (s : State) : s.countDraw.corrSeq = s.corrSeq := rfl
@[simp] theorem State.slots_countDraw (s : State) : s.countDraw.slots = s.slots := rfl
@[simp] theorem State.err_countDraw (s : State) : s.countDraw.err = s.err := rfl
@[simp] theorem State.ldec_countDraw (s : State) : s.countDraw.ldec = s.ldec := rfl
@[simp] theorem State.rej_countDraw (s : State) : s.countDraw.rej = s.rej := rfl
@[simp] theorem State.sent_countDraw (s : State) : s.countDraw.sent = s.sent := rfl
@[simp] theorem State.draws_countDraw (s : State) : s.countDraw.draws = s.draws + 1 := rfl
@[simp] theorem State.bufferEpoch_countDraw (s : State) : s.countDraw.bufferEpoch = s.bufferEpoch := rfl
@[simp] theorem State.pending_countDraw (s : State) : s.countDraw.pending = s.pending := rfl
@[simp] theorem State.hostReads_countDraw (s : State) : s.countDraw.hostReads = s.hostReads := rfl
@[simp] theorem State.txView_countDraw (s : State) : s.countDraw.txView = s.txView := rfl
@[simp] theorem State.rxView_countDraw (s : State) : s.countDraw.rxView = s.rxView := rfl
@[simp] theorem State.busy_countDraw (s : State) : s.countDraw.busy = s.busy := by
  simp only [State.busy, State.corr_countDraw]

/-! `State.logRead` -/

@[simp] theorem State.crcAcc_logRead (s : State) (v : Word) : (s.logRead v).crcAcc = s.crcAcc := rfl
@[simp] theorem State.crcDin_logRead (s : State) (v : Word) : (s.logRead v).crcDin = s.crcDin := rfl
@[simp] theorem State.tx_logRead (s : State) (v : Word) : (s.logRead v).tx = s.tx := rfl
@[simp] theorem State.rx_logRead (s : State) (v : Word) : (s.logRead v).rx = s.rx := rfl
@[simp] theorem State.txLen_logRead (s : State) (v : Word) : (s.logRead v).txLen = s.txLen := rfl
@[simp] theorem State.txSeq_logRead (s : State) (v : Word) : (s.logRead v).txSeq = s.txSeq := rfl
@[simp] theorem State.txv_logRead (s : State) (v : Word) : (s.logRead v).txv = s.txv := rfl
@[simp] theorem State.rxLen_logRead (s : State) (v : Word) : (s.logRead v).rxLen = s.rxLen := rfl
@[simp] theorem State.corr_logRead (s : State) (v : Word) : (s.logRead v).corr = s.corr := rfl
@[simp] theorem State.corrSeq_logRead (s : State) (v : Word) : (s.logRead v).corrSeq = s.corrSeq := rfl
@[simp] theorem State.slots_logRead (s : State) (v : Word) : (s.logRead v).slots = s.slots := rfl
@[simp] theorem State.err_logRead (s : State) (v : Word) : (s.logRead v).err = s.err := rfl
@[simp] theorem State.ldec_logRead (s : State) (v : Word) : (s.logRead v).ldec = s.ldec := rfl
@[simp] theorem State.rej_logRead (s : State) (v : Word) : (s.logRead v).rej = s.rej := rfl
@[simp] theorem State.sent_logRead (s : State) (v : Word) : (s.logRead v).sent = s.sent := rfl
@[simp] theorem State.draws_logRead (s : State) (v : Word) : (s.logRead v).draws = s.draws := rfl
@[simp] theorem State.bufferEpoch_logRead (s : State) (v : Word) : (s.logRead v).bufferEpoch = s.bufferEpoch := rfl
@[simp] theorem State.pending_logRead (s : State) (v : Word) : (s.logRead v).pending = s.pending := rfl
@[simp] theorem State.hostReads_logRead (s : State) (v : Word) : (s.logRead v).hostReads = s.hostReads ++ [v] := rfl
@[simp] theorem State.txView_logRead (s : State) (v : Word) : (s.logRead v).txView = s.txView := rfl
@[simp] theorem State.rxView_logRead (s : State) (v : Word) : (s.logRead v).rxView = s.rxView := rfl
@[simp] theorem State.busy_logRead (s : State) (v : Word) : (s.logRead v).busy = s.busy := by
  simp only [State.busy, State.corr_logRead]

/-! `State.setPending` -/

@[simp] theorem State.crcAcc_setPending (s : State) (es : List Event) : (s.setPending es).crcAcc = s.crcAcc := rfl
@[simp] theorem State.crcDin_setPending (s : State) (es : List Event) : (s.setPending es).crcDin = s.crcDin := rfl
@[simp] theorem State.tx_setPending (s : State) (es : List Event) : (s.setPending es).tx = s.tx := rfl
@[simp] theorem State.rx_setPending (s : State) (es : List Event) : (s.setPending es).rx = s.rx := rfl
@[simp] theorem State.txLen_setPending (s : State) (es : List Event) : (s.setPending es).txLen = s.txLen := rfl
@[simp] theorem State.txSeq_setPending (s : State) (es : List Event) : (s.setPending es).txSeq = s.txSeq := rfl
@[simp] theorem State.txv_setPending (s : State) (es : List Event) : (s.setPending es).txv = s.txv := rfl
@[simp] theorem State.rxLen_setPending (s : State) (es : List Event) : (s.setPending es).rxLen = s.rxLen := rfl
@[simp] theorem State.corr_setPending (s : State) (es : List Event) : (s.setPending es).corr = s.corr := rfl
@[simp] theorem State.corrSeq_setPending (s : State) (es : List Event) : (s.setPending es).corrSeq = s.corrSeq := rfl
@[simp] theorem State.slots_setPending (s : State) (es : List Event) : (s.setPending es).slots = s.slots := rfl
@[simp] theorem State.err_setPending (s : State) (es : List Event) : (s.setPending es).err = s.err := rfl
@[simp] theorem State.ldec_setPending (s : State) (es : List Event) : (s.setPending es).ldec = s.ldec := rfl
@[simp] theorem State.rej_setPending (s : State) (es : List Event) : (s.setPending es).rej = s.rej := rfl
@[simp] theorem State.sent_setPending (s : State) (es : List Event) : (s.setPending es).sent = s.sent := rfl
@[simp] theorem State.draws_setPending (s : State) (es : List Event) : (s.setPending es).draws = s.draws := rfl
@[simp] theorem State.bufferEpoch_setPending (s : State) (es : List Event) : (s.setPending es).bufferEpoch = s.bufferEpoch := rfl
@[simp] theorem State.pending_setPending (s : State) (es : List Event) : (s.setPending es).pending = es := rfl
@[simp] theorem State.hostReads_setPending (s : State) (es : List Event) : (s.setPending es).hostReads = s.hostReads := rfl
@[simp] theorem State.txView_setPending (s : State) (es : List Event) : (s.setPending es).txView = s.txView := rfl
@[simp] theorem State.rxView_setPending (s : State) (es : List Event) : (s.setPending es).rxView = s.rxView := rfl
@[simp] theorem State.busy_setPending (s : State) (es : List Event) : (s.setPending es).busy = s.busy := by
  simp only [State.busy, State.corr_setPending]

/-! `State.reject` -/

@[simp] theorem State.crcAcc_reject (s : State) : s.reject.crcAcc = s.crcAcc := rfl
@[simp] theorem State.crcDin_reject (s : State) : s.reject.crcDin = s.crcDin := rfl
@[simp] theorem State.tx_reject (s : State) : s.reject.tx = s.tx := rfl
@[simp] theorem State.rx_reject (s : State) : s.reject.rx = s.rx := rfl
@[simp] theorem State.txLen_reject (s : State) : s.reject.txLen = s.txLen := rfl
@[simp] theorem State.txSeq_reject (s : State) : s.reject.txSeq = s.txSeq := rfl
@[simp] theorem State.txv_reject (s : State) : s.reject.txv = s.txv := rfl
@[simp] theorem State.rxLen_reject (s : State) : s.reject.rxLen = s.rxLen := rfl
@[simp] theorem State.corr_reject (s : State) : s.reject.corr = s.corr := rfl
@[simp] theorem State.corrSeq_reject (s : State) : s.reject.corrSeq = s.corrSeq := rfl
@[simp] theorem State.slots_reject (s : State) : s.reject.slots = s.slots := rfl
@[simp] theorem State.err_reject (s : State) : s.reject.err = s.err := rfl
@[simp] theorem State.ldec_reject (s : State) : s.reject.ldec = s.ldec := rfl
@[simp] theorem State.rej_reject (s : State) : s.reject.rej = true := rfl
@[simp] theorem State.sent_reject (s : State) : s.reject.sent = s.sent := rfl
@[simp] theorem State.draws_reject (s : State) : s.reject.draws = s.draws := rfl
@[simp] theorem State.bufferEpoch_reject (s : State) : s.reject.bufferEpoch = s.bufferEpoch := rfl
@[simp] theorem State.pending_reject (s : State) : s.reject.pending = s.pending := rfl
@[simp] theorem State.hostReads_reject (s : State) : s.reject.hostReads = s.hostReads := rfl
@[simp] theorem State.txView_reject (s : State) : s.reject.txView = s.txView := rfl
@[simp] theorem State.rxView_reject (s : State) : s.reject.rxView = s.rxView := rfl
@[simp] theorem State.busy_reject (s : State) : s.reject.busy = s.busy := by
  simp only [State.busy, State.corr_reject]

/-! `State.accept` -/

@[simp] theorem State.crcAcc_accept (s : State) : s.accept.crcAcc = s.crcAcc := rfl
@[simp] theorem State.crcDin_accept (s : State) : s.accept.crcDin = s.crcDin := rfl
@[simp] theorem State.tx_accept (s : State) : s.accept.tx = s.tx := rfl
@[simp] theorem State.rx_accept (s : State) : s.accept.rx = s.rx := rfl
@[simp] theorem State.txLen_accept (s : State) : s.accept.txLen = s.txLen := rfl
@[simp] theorem State.txSeq_accept (s : State) : s.accept.txSeq = s.txSeq := rfl
@[simp] theorem State.txv_accept (s : State) : s.accept.txv = s.txv := rfl
@[simp] theorem State.rxLen_accept (s : State) : s.accept.rxLen = s.rxLen := rfl
@[simp] theorem State.corr_accept (s : State) : s.accept.corr = s.corr := rfl
@[simp] theorem State.corrSeq_accept (s : State) : s.accept.corrSeq = s.corrSeq := rfl
@[simp] theorem State.slots_accept (s : State) : s.accept.slots = s.slots := rfl
@[simp] theorem State.err_accept (s : State) : s.accept.err = s.err := rfl
@[simp] theorem State.ldec_accept (s : State) : s.accept.ldec = s.ldec := rfl
@[simp] theorem State.rej_accept (s : State) : s.accept.rej = false := rfl
@[simp] theorem State.sent_accept (s : State) : s.accept.sent = s.sent := rfl
@[simp] theorem State.draws_accept (s : State) : s.accept.draws = s.draws := rfl
@[simp] theorem State.bufferEpoch_accept (s : State) : s.accept.bufferEpoch = s.bufferEpoch := rfl
@[simp] theorem State.pending_accept (s : State) : s.accept.pending = s.pending := rfl
@[simp] theorem State.hostReads_accept (s : State) : s.accept.hostReads = s.hostReads := rfl
@[simp] theorem State.txView_accept (s : State) : s.accept.txView = s.txView := rfl
@[simp] theorem State.rxView_accept (s : State) : s.accept.rxView = s.rxView := rfl
@[simp] theorem State.busy_accept (s : State) : s.accept.busy = s.busy := by
  simp only [State.busy, State.corr_accept]

/-! `State.takeSlot` -/

@[simp] theorem State.crcAcc_takeSlot (s : State) : s.takeSlot.crcAcc = s.crcAcc := rfl
@[simp] theorem State.crcDin_takeSlot (s : State) : s.takeSlot.crcDin = s.crcDin := rfl
@[simp] theorem State.tx_takeSlot (s : State) : s.takeSlot.tx = s.tx := rfl
@[simp] theorem State.rx_takeSlot (s : State) : s.takeSlot.rx = s.rx := rfl
@[simp] theorem State.txLen_takeSlot (s : State) : s.takeSlot.txLen = s.txLen := rfl
@[simp] theorem State.txSeq_takeSlot (s : State) : s.takeSlot.txSeq = s.txSeq := rfl
@[simp] theorem State.txv_takeSlot (s : State) : s.takeSlot.txv = s.txv := rfl
@[simp] theorem State.rxLen_takeSlot (s : State) : s.takeSlot.rxLen = s.rxLen := rfl
@[simp] theorem State.corr_takeSlot (s : State) : s.takeSlot.corr = s.corr := rfl
@[simp] theorem State.corrSeq_takeSlot (s : State) : s.takeSlot.corrSeq = s.corrSeq := rfl
@[simp] theorem State.slots_takeSlot (s : State) : s.takeSlot.slots = ⟨s.slots.val - 1, by omega⟩ := rfl
@[simp] theorem State.err_takeSlot (s : State) : s.takeSlot.err = s.err := rfl
@[simp] theorem State.ldec_takeSlot (s : State) : s.takeSlot.ldec = s.ldec := rfl
@[simp] theorem State.rej_takeSlot (s : State) : s.takeSlot.rej = s.rej := rfl
@[simp] theorem State.sent_takeSlot (s : State) : s.takeSlot.sent = s.sent := rfl
@[simp] theorem State.draws_takeSlot (s : State) : s.takeSlot.draws = s.draws := rfl
@[simp] theorem State.bufferEpoch_takeSlot (s : State) : s.takeSlot.bufferEpoch = s.bufferEpoch := rfl
@[simp] theorem State.pending_takeSlot (s : State) : s.takeSlot.pending = s.pending := rfl
@[simp] theorem State.hostReads_takeSlot (s : State) : s.takeSlot.hostReads = s.hostReads := rfl
@[simp] theorem State.txView_takeSlot (s : State) : s.takeSlot.txView = s.txView := rfl
@[simp] theorem State.rxView_takeSlot (s : State) : s.takeSlot.rxView = s.rxView := rfl
@[simp] theorem State.busy_takeSlot (s : State) : s.takeSlot.busy = s.busy := by
  simp only [State.busy, State.corr_takeSlot]

/-! `State.emit` -/

@[simp] theorem State.crcAcc_emit (s : State) (d : List Byte) : (s.emit d).crcAcc = s.crcAcc := rfl
@[simp] theorem State.crcDin_emit (s : State) (d : List Byte) : (s.emit d).crcDin = s.crcDin := rfl
@[simp] theorem State.tx_emit (s : State) (d : List Byte) : (s.emit d).tx = s.tx := rfl
@[simp] theorem State.rx_emit (s : State) (d : List Byte) : (s.emit d).rx = s.rx := rfl
@[simp] theorem State.txLen_emit (s : State) (d : List Byte) : (s.emit d).txLen = s.txLen := rfl
@[simp] theorem State.txSeq_emit (s : State) (d : List Byte) : (s.emit d).txSeq = s.txSeq := rfl
@[simp] theorem State.txv_emit (s : State) (d : List Byte) : (s.emit d).txv = s.txv := rfl
@[simp] theorem State.rxLen_emit (s : State) (d : List Byte) : (s.emit d).rxLen = s.rxLen := rfl
@[simp] theorem State.corr_emit (s : State) (d : List Byte) : (s.emit d).corr = s.corr := rfl
@[simp] theorem State.corrSeq_emit (s : State) (d : List Byte) : (s.emit d).corrSeq = s.corrSeq := rfl
@[simp] theorem State.slots_emit (s : State) (d : List Byte) : (s.emit d).slots = s.slots := rfl
@[simp] theorem State.err_emit (s : State) (d : List Byte) : (s.emit d).err = s.err := rfl
@[simp] theorem State.ldec_emit (s : State) (d : List Byte) : (s.emit d).ldec = s.ldec := rfl
@[simp] theorem State.rej_emit (s : State) (d : List Byte) : (s.emit d).rej = s.rej := rfl
@[simp] theorem State.sent_emit (s : State) (d : List Byte) : (s.emit d).sent = s.sent ++ [d] := rfl
@[simp] theorem State.draws_emit (s : State) (d : List Byte) : (s.emit d).draws = s.draws := rfl
@[simp] theorem State.bufferEpoch_emit (s : State) (d : List Byte) : (s.emit d).bufferEpoch = s.bufferEpoch := rfl
@[simp] theorem State.pending_emit (s : State) (d : List Byte) : (s.emit d).pending = s.pending := rfl
@[simp] theorem State.hostReads_emit (s : State) (d : List Byte) : (s.emit d).hostReads = s.hostReads := rfl
@[simp] theorem State.txView_emit (s : State) (d : List Byte) : (s.emit d).txView = s.txView := rfl
@[simp] theorem State.rxView_emit (s : State) (d : List Byte) : (s.emit d).rxView = s.rxView := rfl
@[simp] theorem State.busy_emit (s : State) (d : List Byte) : (s.emit d).busy = s.busy := by
  simp only [State.busy, State.corr_emit]

/-! `State.startWait` -/

@[simp] theorem State.crcAcc_startWait (s : State) : s.startWait.crcAcc = s.crcAcc := rfl
@[simp] theorem State.crcDin_startWait (s : State) : s.startWait.crcDin = s.crcDin := rfl
@[simp] theorem State.tx_startWait (s : State) : s.startWait.tx = s.tx := rfl
@[simp] theorem State.rx_startWait (s : State) : s.startWait.rx = s.rx := rfl
@[simp] theorem State.txLen_startWait (s : State) : s.startWait.txLen = s.txLen := rfl
@[simp] theorem State.txSeq_startWait (s : State) : s.startWait.txSeq = s.txSeq := rfl
@[simp] theorem State.txv_startWait (s : State) : s.startWait.txv = false := rfl
@[simp] theorem State.rxLen_startWait (s : State) : s.startWait.rxLen = s.rxLen := rfl
@[simp] theorem State.corr_startWait (s : State) : s.startWait.corr = CorrState.wait := rfl
@[simp] theorem State.corrSeq_startWait (s : State) : s.startWait.corrSeq = s.txSeq := rfl
@[simp] theorem State.slots_startWait (s : State) : s.startWait.slots = Config.slotBudget := rfl
@[simp] theorem State.err_startWait (s : State) : s.startWait.err = ErrCode.none := rfl
@[simp] theorem State.ldec_startWait (s : State) : s.startWait.ldec = s.ldec := rfl
@[simp] theorem State.rej_startWait (s : State) : s.startWait.rej = s.rej := rfl
@[simp] theorem State.sent_startWait (s : State) : s.startWait.sent = s.sent := rfl
@[simp] theorem State.draws_startWait (s : State) : s.startWait.draws = s.draws := rfl
@[simp] theorem State.bufferEpoch_startWait (s : State) : s.startWait.bufferEpoch = s.bufferEpoch := rfl
@[simp] theorem State.pending_startWait (s : State) : s.startWait.pending = s.pending := rfl
@[simp] theorem State.hostReads_startWait (s : State) : s.startWait.hostReads = s.hostReads := rfl
@[simp] theorem State.txView_startWait (s : State) : s.startWait.txView = s.txView := rfl
@[simp] theorem State.rxView_startWait (s : State) : s.startWait.rxView = s.rxView := rfl

/-! `State.capture` -/

@[simp] theorem State.crcAcc_capture (s : State) (d : List Byte) : (s.capture d).crcAcc = s.crcAcc := rfl
@[simp] theorem State.crcDin_capture (s : State) (d : List Byte) : (s.capture d).crcDin = s.crcDin := rfl
@[simp] theorem State.tx_capture (s : State) (d : List Byte) : (s.capture d).tx = s.tx := rfl
@[simp] theorem State.rx_capture (s : State) (d : List Byte) : (s.capture d).rx = s.rx.writeBytes 0 (d.take Config.maxFrame) := rfl
@[simp] theorem State.txLen_capture (s : State) (d : List Byte) : (s.capture d).txLen = s.txLen := rfl
@[simp] theorem State.txSeq_capture (s : State) (d : List Byte) : (s.capture d).txSeq = s.txSeq := rfl
@[simp] theorem State.txv_capture (s : State) (d : List Byte) : (s.capture d).txv = s.txv := rfl
@[simp] theorem State.rxLen_capture (s : State) (d : List Byte) : (s.capture d).rxLen = BitVec.ofNat 16 d.length := rfl
@[simp] theorem State.corr_capture (s : State) (d : List Byte) : (s.capture d).corr = s.corr := rfl
@[simp] theorem State.corrSeq_capture (s : State) (d : List Byte) : (s.capture d).corrSeq = s.corrSeq := rfl
@[simp] theorem State.slots_capture (s : State) (d : List Byte) : (s.capture d).slots = s.slots := rfl
@[simp] theorem State.err_capture (s : State) (d : List Byte) : (s.capture d).err = s.err := rfl
@[simp] theorem State.ldec_capture (s : State) (d : List Byte) : (s.capture d).ldec = s.ldec := rfl
@[simp] theorem State.rej_capture (s : State) (d : List Byte) : (s.capture d).rej = s.rej := rfl
@[simp] theorem State.sent_capture (s : State) (d : List Byte) : (s.capture d).sent = s.sent := rfl
@[simp] theorem State.draws_capture (s : State) (d : List Byte) : (s.capture d).draws = s.draws := rfl
@[simp] theorem State.bufferEpoch_capture (s : State) (d : List Byte) : (s.capture d).bufferEpoch = s.bufferEpoch := rfl
@[simp] theorem State.pending_capture (s : State) (d : List Byte) : (s.capture d).pending = s.pending := rfl
@[simp] theorem State.hostReads_capture (s : State) (d : List Byte) : (s.capture d).hostReads = s.hostReads := rfl
@[simp] theorem State.txView_capture (s : State) (d : List Byte) : (s.capture d).txView = s.txView := rfl
@[simp] theorem State.busy_capture (s : State) (d : List Byte) : (s.capture d).busy = s.busy := by
  simp only [State.busy, State.corr_capture]

/-! `State.timeoutIfSpent` writes only CORR and ERR, and only when SLOTS is 0. -/

@[simp] theorem State.crcAcc_timeoutIfSpent (s : State) : s.timeoutIfSpent.crcAcc = s.crcAcc := by
  unfold State.timeoutIfSpent; split <;> rfl
@[simp] theorem State.crcDin_timeoutIfSpent (s : State) : s.timeoutIfSpent.crcDin = s.crcDin := by
  unfold State.timeoutIfSpent; split <;> rfl
@[simp] theorem State.tx_timeoutIfSpent (s : State) : s.timeoutIfSpent.tx = s.tx := by
  unfold State.timeoutIfSpent; split <;> rfl
@[simp] theorem State.rx_timeoutIfSpent (s : State) : s.timeoutIfSpent.rx = s.rx := by
  unfold State.timeoutIfSpent; split <;> rfl
@[simp] theorem State.txLen_timeoutIfSpent (s : State) : s.timeoutIfSpent.txLen = s.txLen := by
  unfold State.timeoutIfSpent; split <;> rfl
@[simp] theorem State.txSeq_timeoutIfSpent (s : State) : s.timeoutIfSpent.txSeq = s.txSeq := by
  unfold State.timeoutIfSpent; split <;> rfl
@[simp] theorem State.txv_timeoutIfSpent (s : State) : s.timeoutIfSpent.txv = s.txv := by
  unfold State.timeoutIfSpent; split <;> rfl
@[simp] theorem State.rxLen_timeoutIfSpent (s : State) : s.timeoutIfSpent.rxLen = s.rxLen := by
  unfold State.timeoutIfSpent; split <;> rfl
@[simp] theorem State.corr_timeoutIfSpent (s : State) :
    s.timeoutIfSpent.corr = if s.slots = 0 then .timeout else s.corr := by
  unfold State.timeoutIfSpent; split <;> rfl
@[simp] theorem State.corrSeq_timeoutIfSpent (s : State) : s.timeoutIfSpent.corrSeq = s.corrSeq := by
  unfold State.timeoutIfSpent; split <;> rfl
@[simp] theorem State.slots_timeoutIfSpent (s : State) : s.timeoutIfSpent.slots = s.slots := by
  unfold State.timeoutIfSpent; split <;> rfl
@[simp] theorem State.err_timeoutIfSpent (s : State) :
    s.timeoutIfSpent.err = if s.slots = 0 then .timeout else s.err := by
  unfold State.timeoutIfSpent; split <;> rfl
@[simp] theorem State.ldec_timeoutIfSpent (s : State) : s.timeoutIfSpent.ldec = s.ldec := by
  unfold State.timeoutIfSpent; split <;> rfl
@[simp] theorem State.rej_timeoutIfSpent (s : State) : s.timeoutIfSpent.rej = s.rej := by
  unfold State.timeoutIfSpent; split <;> rfl
@[simp] theorem State.sent_timeoutIfSpent (s : State) : s.timeoutIfSpent.sent = s.sent := by
  unfold State.timeoutIfSpent; split <;> rfl
@[simp] theorem State.draws_timeoutIfSpent (s : State) : s.timeoutIfSpent.draws = s.draws := by
  unfold State.timeoutIfSpent; split <;> rfl
@[simp] theorem State.bufferEpoch_timeoutIfSpent (s : State) : s.timeoutIfSpent.bufferEpoch = s.bufferEpoch := by
  unfold State.timeoutIfSpent; split <;> rfl
@[simp] theorem State.pending_timeoutIfSpent (s : State) : s.timeoutIfSpent.pending = s.pending := by
  unfold State.timeoutIfSpent; split <;> rfl
@[simp] theorem State.hostReads_timeoutIfSpent (s : State) : s.timeoutIfSpent.hostReads = s.hostReads := by
  unfold State.timeoutIfSpent; split <;> rfl

@[simp] theorem State.txView_timeoutIfSpent (s : State) : s.timeoutIfSpent.txView = s.txView := by
  unfold State.timeoutIfSpent; split <;> rfl
@[simp] theorem State.rxView_timeoutIfSpent (s : State) : s.timeoutIfSpent.rxView = s.rxView := by
  unfold State.timeoutIfSpent; split <;> rfl

/-- With no slot left the request times out (R170). -/
theorem State.timeoutIfSpent_of_spent {s : State} (h : s.slots = 0) :
    s.timeoutIfSpent = { s with corr := .timeout, err := .timeout } := if_pos h

/-- With a slot left the wait goes on (R166, R169). -/
theorem State.timeoutIfSpent_of_left {s : State} (h : s.slots ≠ 0) : s.timeoutIfSpent = s := if_neg h

/-! BUSY and CORR. -/

theorem State.busy_eq_true (s : State) : s.busy = true ↔ s.corr = .wait := by
  simp [State.busy]

theorem State.busy_eq_false (s : State) : s.busy = false ↔ s.corr ≠ .wait := by
  simp [State.busy]

end Sys2Proof.Machine
end

