-- ==== Sys2Proof/Laws/Memory.lean ====
section
/-!
SUPPORT. The laws of a buffer's memory: a read after a write, the other bytes left alone, and the canonical form kept
by every write.
-/
namespace Sys2Proof.Machine

theorem Memory.read_write_same (m : Memory) (a : Nat) (v : Byte) : (m.write a v).read a = some v := by
  induction m with
  | nil => simp [Memory.write, Memory.read]
  | cons c rest ih =>
    obtain ⟨b, w⟩ := c
    simp only [Memory.write]
    split
    · simp [Memory.read]
    · split
      · simp [Memory.read]
      · simp [Memory.read, *]

theorem Memory.read_write_other (m : Memory) {a x : Nat} (v : Byte) (h : x ≠ a) :
    (m.write a v).read x = m.read x := by
  induction m with
  | nil => simp [Memory.write, Memory.read, h]
  | cons c rest ih =>
    obtain ⟨b, w⟩ := c
    simp only [Memory.write]
    split
    · simp [Memory.read, h]
    · split
      · subst b; simp [Memory.read, h]
      · simp [Memory.read, ih]

/-- Everything a run of writes does to one byte. -/
theorem Memory.read_writeBytes (m : Memory) (a : Nat) (bs : List Byte) (x : Nat) :
    (m.writeBytes a bs).read x =
      if a ≤ x ∧ x < a + bs.length then some (bs.getD (x - a) 0) else m.read x := by
  induction bs generalizing m a with
  | nil => simp [Memory.writeBytes]
  | cons b bs ih =>
    simp only [Memory.writeBytes, ih, List.length_cons]
    by_cases hx : x = a
    · subst hx
      simp [Memory.read_write_same]
    · rw [Memory.read_write_other _ _ hx]
      by_cases h : a + 1 ≤ x ∧ x < a + 1 + bs.length
      · have h' : a ≤ x ∧ x < a + (bs.length + 1) := by omega
        rw [if_pos h, if_pos h', show x - a = (x - (a + 1)) + 1 by omega]
        simp
      · have h' : ¬(a ≤ x ∧ x < a + (bs.length + 1)) := by omega
        rw [if_neg h, if_neg h']

theorem Memory.wfFrom_mono {m : Memory} {lo lo' : Nat} (h : lo' ≤ lo) (hm : Memory.wfFrom lo m = true) :
    Memory.wfFrom lo' m = true := by
  cases m with
  | nil => rfl
  | cons c rest =>
    simp only [Memory.wfFrom, Bool.and_eq_true, decide_eq_true_eq] at hm ⊢
    exact ⟨⟨by omega, hm.1.2⟩, hm.2⟩

theorem Memory.wfFrom_write {m : Memory} {lo a : Nat} (v : Byte) (hlo : lo ≤ a) (ha : a < Config.maxFrame)
    (hm : Memory.wfFrom lo m = true) : Memory.wfFrom lo (m.write a v) = true := by
  induction m generalizing lo with
  | nil => simp [Memory.write, Memory.wfFrom, hlo, ha]
  | cons c rest ih =>
    obtain ⟨b, w⟩ := c
    simp only [Memory.wfFrom, Bool.and_eq_true, decide_eq_true_eq] at hm
    obtain ⟨⟨hb, hbm⟩, hr⟩ := hm
    simp only [Memory.write]
    split
    · simp only [Memory.wfFrom, Bool.and_eq_true, decide_eq_true_eq]
      exact ⟨⟨hlo, ha⟩, ⟨by omega, hbm⟩, hr⟩
    · split
      · subst a
        simp only [Memory.wfFrom, Bool.and_eq_true, decide_eq_true_eq]
        exact ⟨⟨hlo, ha⟩, hr⟩
      · simp only [Memory.wfFrom, Bool.and_eq_true, decide_eq_true_eq]
        exact ⟨⟨hb, hbm⟩, ih (by omega) hr⟩

/-- A write inside the buffer keeps the canonical form. -/
theorem Memory.wf_write {m : Memory} {a : Nat} (v : Byte) (ha : a < Config.maxFrame) (hm : m.wf = true) :
    (m.write a v).wf = true :=
  Memory.wfFrom_write v (Nat.zero_le a) ha hm

/-- A run of writes inside the buffer keeps the canonical form. -/
theorem Memory.wf_writeBytes {m : Memory} {a : Nat} {bs : List Byte} (ha : a + bs.length ≤ Config.maxFrame)
    (hm : m.wf = true) : (m.writeBytes a bs).wf = true := by
  induction bs generalizing m a with
  | nil => exact hm
  | cons b bs ih =>
    rw [List.length_cons] at ha
    exact ih (by omega) (Memory.wf_write b (by omega) hm)

theorem State.reset_tx_wf : State.reset.tx.wf = true := rfl

theorem State.reset_rx_wf : State.reset.rx.wf = true := rfl

/-- What TX reads after a write of consecutive bytes. -/
theorem State.txView_writeTx (s : State) (a : Nat) (bs : List Byte) (i : Nat) :
    (s.writeTx a bs).txView i = if a ≤ i ∧ i < a + bs.length then bs.getD (i - a) 0 else s.txView i := by
  simp only [State.txView, State.tx_writeTx, State.bufferEpoch_writeTx, Memory.read_writeBytes]
  split <;> rfl

/-- What RX reads after a write of consecutive bytes. -/
theorem State.rxView_writeRx (s : State) (a : Nat) (bs : List Byte) (i : Nat) :
    (s.writeRx a bs).rxView i = if a ≤ i ∧ i < a + bs.length then bs.getD (i - a) 0 else s.rxView i := by
  simp only [State.rxView, State.rx_writeRx, State.bufferEpoch_writeRx, Memory.read_writeBytes]
  split <;> rfl

end Sys2Proof.Machine
end

