-- ==== Sys2Proof/Laws/Bytes.lean ====
section
/-!
SUPPORT. The byte helpers: lengths, padding, little-endian fields read back from the bytes that were written, and the
fact that a pure function of a buffer depends only on the bytes it reads.
-/
namespace Sys2Proof.Machine

@[simp] theorem length_bytes16 (v : Half) : (bytes16 v).length = 2 := by simp [bytes16]

@[simp] theorem length_bytes32 (v : Word) : (bytes32 v).length = 4 := by simp [bytes32]

@[simp] theorem length_zeros (n : Nat) : (zeros n).length = n := by simp [zeros]

@[simp] theorem length_frameHeader (seq : Half) (len : Nat) : (frameHeader seq len).length = 8 := by
  simp [frameHeader]

@[simp] theorem length_slice (B : View) (a b : Nat) : (slice B a b).length = b - a := by simp [slice]

theorem getD_slice (B : View) (a b i : Nat) (h : i < b - a) : (slice B a b).getD i 0 = B (a + i) := by
  simp [slice, h]

theorem le_pad4 (n : Nat) : n ≤ pad4 n := by unfold pad4; omega

theorem pad4_lt (n : Nat) : pad4 n < n + 4 := by unfold pad4; omega

@[simp] theorem pad4_mod (n : Nat) : pad4 n % 4 = 0 := by unfold pad4; omega

theorem pad4_of_mod_eq_zero {n : Nat} (h : n % 4 = 0) : pad4 n = n := by unfold pad4; omega

theorem pad4_le_of_le {n : Nat} (h : n ≤ Config.maxPayload) : 12 + pad4 n ≤ 1024 := by
  simp only [Config.maxPayload, Config.maxFrame, Config.frameOverhead, Config.hdrBytes, Config.trlBytes] at h
  unfold pad4; omega

@[simp] theorem length_frameBody (p : List Byte) (seq : Half) : (frameBody p seq).length = 8 + pad4 p.length := by
  have := le_pad4 p.length
  simp [frameBody]; omega

@[simp] theorem length_words (B : View) (a k : Nat) : (words B a k).length = k := by simp [words]

/-- `le16` reads two bytes. -/
theorem le16_congr {B B' : View} {i : Nat} (h0 : B i = B' i) (h1 : B (i + 1) = B' (i + 1)) :
    le16 B i = le16 B' i := by simp [le16, h0, h1]

/-- `le32` reads four bytes. -/
theorem le32_congr {B B' : View} {i : Nat} (h : ∀ j, j < 4 → B (i + j) = B' (i + j)) : le32 B i = le32 B' i := by
  have h0 := h 0 (by omega)
  have h1 := h 1 (by omega)
  have h2 := h 2 (by omega)
  have h3 := h 3 (by omega)
  simp only [Nat.add_zero] at h0
  simp [le32, h0, h1, h2, h3]

/-- `words` reads `4 * k` bytes. -/
theorem words_congr {B B' : View} {a k : Nat} (h : ∀ j, j < 4 * k → B (a + j) = B' (a + j)) :
    words B a k = words B' a k := by
  simp only [words]
  apply List.map_congr_left
  intro j hj
  rw [List.mem_range] at hj
  apply le32_congr
  intro i hi
  rw [Nat.add_assoc]
  exact h _ (by omega)

/-- A 16-bit field reads back from its two bytes. -/
theorem le16_of_bytes16 {B : View} {i : Nat} {v : Half} (h0 : B i = v.extractLsb' 0 8)
    (h1 : B (i + 1) = v.extractLsb' 8 8) : le16 B i = v := by
  simp only [le16, h0, h1]
  exact BitVec.eq_of_getLsbD_eq fun k hk => by
    simp only [BitVec.getLsbD_append, BitVec.getLsbD_extractLsb']
    by_cases h : k < 8
    · simp [h]
    · simp only [h, if_false]
      rw [show 8 + (k - 8) = k by omega]
      have : k - 8 < 8 := by omega
      simp [this]

/-- A 32-bit word reads back from its four bytes. -/
theorem le32_of_bytes32 {B : View} {i : Nat} {v : Word} (h : ∀ j, j < 4 → B (i + j) = (bytes32 v).getD j 0) :
    le32 B i = v := by
  have h0 := h 0 (by omega)
  have h1 := h 1 (by omega)
  have h2 := h 2 (by omega)
  have h3 := h 3 (by omega)
  simp only [Nat.add_zero, bytes32, List.getD_cons_zero, List.getD_cons_succ] at h0 h1 h2 h3
  simp only [le32, h0, h1, h2, h3]
  exact BitVec.eq_of_getLsbD_eq fun k hk => by
    simp only [BitVec.getLsbD_append, BitVec.getLsbD_extractLsb']
    by_cases ha : k < 8
    · simp [ha]
    · by_cases hb : k < 16
      · have e : 8 + (k - 8) = k := by omega
        have : k - 8 < 8 := by omega
        simp [ha, this, e]
      · by_cases hc : k < 24
        · have e : 16 + (k - 8 - 8) = k := by omega
          have p : ¬ k - 8 < 8 := by omega
          have : k - 8 - 8 < 8 := by omega
          simp [ha, p, this, e]
        · have e : 24 + (k - 8 - 8 - 8) = k := by omega
          have p : ¬ k - 8 < 8 := by omega
          have q : ¬ k - 8 - 8 < 8 := by omega
          have : k - 8 - 8 - 8 < 8 := by omega
          simp [ha, p, q, this, e]

/-- The bytes ENCODE writes depend on TX alone. -/
theorem tx_frameInto_congr {s s' : State} (len : Nat) (seq : Half) (ht : s.tx = s'.tx)
    (he : s.bufferEpoch = s'.bufferEpoch) : (frameInto len seq s).tx = (frameInto len seq s').tx := by
  have hv : ∀ a bs b cs, ((s.writeTx a bs).writeTx b cs).txView = ((s'.writeTx a bs).writeTx b cs).txView := by
    intro a bs b cs
    funext i
    simp only [State.txView, State.tx_writeTx, State.bufferEpoch_writeTx, ht, he]
  simp only [frameInto, State.tx_writeTx, hv, ht]

/-- "Every byte read lies inside `B[0..n)`" (R134): the verdict depends on no other byte. -/
theorem decodeVerdict_congr {B B' : View} {n : Nat} (h : ∀ i, i < n → B i = B' i) :
    decodeVerdict B n = decodeVerdict B' n := by
  unfold decodeVerdict
  by_cases hn : n < Config.hdrBytes ∨ Config.maxFrame < n
  · rw [if_pos hn, if_pos hn]
  · rw [if_neg hn, if_neg hn]
    simp only [Config.hdrBytes] at hn
    have hp : hdrPreamble B = hdrPreamble B' := le16_congr (h 0 (by omega)) (h 1 (by omega))
    have hl : hdrLen B = hdrLen B' := by
      unfold hdrLen; rw [le16_congr (h 6 (by omega)) (h 7 (by omega))]
    rw [hp, hl]
    by_cases hq : hdrLen B' + Config.frameOverhead ≠ n
    · rw [if_pos hq, if_pos hq]
    · rw [if_neg hq, if_neg hq]
      simp only [Config.frameOverhead, Config.hdrBytes, Config.trlBytes, ne_eq, Decidable.not_not] at hq
      have ht : le32 B (Config.hdrBytes + hdrLen B') = le32 B' (Config.hdrBytes + hdrLen B') :=
        le32_congr fun j hj => h _ (by simp only [Config.hdrBytes]; omega)
      have hw : words B 0 (coveredWords (hdrLen B')) = words B' 0 (coveredWords (hdrLen B')) :=
        words_congr fun j hj => h _ (by simp only [coveredWords, Config.hdrWords] at hj; omega)
      rw [ht, hw]

end Sys2Proof.Machine
end

