-- ==== Sys2Proof/Laws/Ops.lean ====
section
/-!
SUPPORT. What each shared operation of the commands and events can do, said once: the gate of `command_write`, an
arrival, an expiry, delivery outside WAIT.
-/
namespace Sys2Proof.Machine

/-- While a request is outstanding the gate rejects, whatever the command (R94). -/
theorem gate_of_busy {s : State} (run : State → Result) (h : s.busy = true) : gate s run = .next s.reject := by
  simp [gate, h]

/-- Otherwise the command is accepted and runs (R94). -/
theorem gate_of_free {s : State} (run : State → Result) (h : s.busy = false) : gate s run = run s.accept := by
  simp [gate, h]

/-- All the gate can do. -/
theorem gate_cases (s : State) (run : State → Result) :
    (s.busy = true ∧ gate s run = .next s.reject) ∨ (s.busy = false ∧ gate s run = run s.accept) := by
  cases h : s.busy
  · exact .inr ⟨rfl, gate_of_free run h⟩
  · exact .inl ⟨rfl, gate_of_busy run h⟩

/-- Everything an arrival can do: match, discard with a slot left, or time out (R164 to R166, R170). -/
theorem arrive_cases (d : List Byte) (s : State) :
    let c := s.capture d
    let v := decodeVerdict c.rxView c.rxLen.toNat
    (v = .ok ∧ hdrSeq c.rxView = s.corrSeq ∧
        arrive d s = { c.takeSlot with ldec := .verdict .ok, corr := .matched, err := .none }) ∨
      (¬(v = .ok ∧ hdrSeq c.rxView = s.corrSeq) ∧
        arrive d s = (c.takeSlot.setLdec (if v = .ok then .seqMismatch else .verdict v)).timeoutIfSpent) := by
  intro c v
  by_cases h : v = .ok ∧ hdrSeq c.rxView = s.corrSeq
  · exact .inl ⟨h.1, h.2, if_pos h⟩
  · exact .inr ⟨h, if_neg h⟩

/-- A datagram outside WAIT is dropped (R167). -/
theorem deliver_of_free {s : State} (d : List Byte) (h : s.busy = false) : deliver d s = s := by
  simp [deliver, h]

theorem deliver_of_busy {s : State} (d : List Byte) (h : s.busy = true) : deliver d s = arrive d s := by
  simp [deliver, h]

/-- The slot timer takes no step outside WAIT (R160). -/
theorem timerEvent_of_free {s : State} (h : s.busy = false) : timerEvent s = s := by
  simp [timerEvent, h]

theorem timerEvent_of_busy {s : State} (h : s.busy = true) : timerEvent s = expire s := by
  simp [timerEvent, h]

/-- What RX reads after a datagram has been stored: its first 1024 bytes, the rest as before (R164, R168). -/
theorem State.rxView_capture (s : State) (d : List Byte) (i : Nat) :
    (s.capture d).rxView i = if i < min d.length 1024 then d.getD i 0 else s.rxView i := by
  have h : (s.capture d).rxView = (s.writeRx 0 (d.take Config.maxFrame)).rxView := rfl
  rw [h, State.rxView_writeRx]
  simp only [Config.maxFrame, List.length_take]
  by_cases hi : i < min d.length 1024
  · rw [if_pos (by omega), if_pos hi]
    simp only [Nat.sub_zero, List.getD_eq_getElem?_getD]
    rw [List.getElem?_take_of_lt (by omega)]
  · rw [if_neg (by omega), if_neg hi]

/-- RX_LEN holds a datagram's true length (R164). -/
theorem State.rxLen_capture_toNat (s : State) {d : List Byte} (h : d.length ≤ Config.maxDatagram) :
    (s.capture d).rxLen.toNat = d.length := by
  simp only [Config.maxDatagram] at h
  simp only [State.rxLen_capture, BitVec.toNat_ofNat]
  omega

/-- The verdict on a stored datagram is the verdict on the datagram (R134, R164). -/
theorem decodeVerdict_capture (s : State) {d : List Byte} (h : d.length ≤ Config.maxDatagram) :
    decodeVerdict (s.capture d).rxView (s.capture d).rxLen.toNat = decodeVerdict (viewOf d) d.length := by
  rw [s.rxLen_capture_toNat h]
  by_cases hl : 1024 < d.length
  · unfold decodeVerdict
    rw [if_pos (.inr hl), if_pos (.inr hl)]
  · exact decodeVerdict_congr fun i hi => by rw [State.rxView_capture, if_pos (by omega)]; rfl

/-- The offsets of TX_BUF (R51). -/
theorem windowSlot_of_tx {off : BitVec 12} (h : 0x400 ≤ off.toNat) (h' : off.toNat < 0x800) :
    windowSlot off = .txBuf (off.toNat - 0x400) := by
  unfold windowSlot; split_ifs <;> first | omega | rfl

/-- The offsets of RX_BUF (R51). -/
theorem windowSlot_of_rx {off : BitVec 12} (h : 0x800 ≤ off.toNat) (h' : off.toNat < 0xC00) :
    windowSlot off = .rxBuf (off.toNat - 0x800) := by
  unfold windowSlot; split_ifs <;> first | omega | rfl

/-- The unmapped offsets, of the multiples of 4 (R51, R57). -/
theorem windowSlot_of_unmapped {off : BitVec 12}
    (h : (0x020 ≤ off.toNat ∧ off.toNat ≤ 0x3FC) ∨ 0xC00 ≤ off.toNat) : windowSlot off = .unmapped := by
  unfold windowSlot; split_ifs <;> first | omega | rfl

/-- The slots a write can change, with their only offsets. -/
theorem windowSlot_inv (off : BitVec 12) :
    (∀ i, windowSlot off = .txBuf i → off.toNat = 0x400 + i ∧ i < 1024) ∧
      (∀ i, windowSlot off = .rxBuf i → off.toNat = 0x800 + i ∧ i < 1024) ∧
      (windowSlot off = .cmd → off.toNat = 0x000) ∧ (windowSlot off = .crcDin → off.toNat = 0x00C) ∧
      (windowSlot off = .rxLen → off.toNat = 0x018) := by
  by_cases h1 : off.toNat < 0x400
  · have ht : ¬(0x400 ≤ off.toNat ∧ off.toNat < 0x800) := by omega
    have hr : ¬(0x800 ≤ off.toNat ∧ off.toNat < 0xC00) := by omega
    unfold windowSlot
    rw [if_neg ht, if_neg hr]
    split_ifs <;> simp [*]
  · by_cases h2 : off.toNat < 0x800
    · rw [windowSlot_of_tx (by omega) h2]
      simp only [WindowSlot.txBuf.injEq, reduceCtorEq, false_implies, implies_true, and_true]
      intro i hi; omega
    · by_cases h3 : off.toNat < 0xC00
      · rw [windowSlot_of_rx (by omega) h3]
        simp only [WindowSlot.rxBuf.injEq, reduceCtorEq, false_implies, implies_true, and_true, true_and]
        intro i hi; omega
      · rw [windowSlot_of_unmapped (by omega)]
        simp

end Sys2Proof.Machine
end

