-- ==== Sys2Proof/Laws/Step.lean ====
section
/-!
SUPPORT. What one step is, by the event it takes, and what it can do when it answers a next state.
-/
namespace Sys2Proof.Machine

/-- A word stored inside the window is one write, at its own offset (R93). -/
theorem storeWords_cons {off : Nat} (v : Word) (vs : List Word) (h : off < 0x1000) :
    storeWords off (v :: vs) = st32 (BitVec.ofNat 12 off) v :: storeWords (off + 4) vs := if_pos h

/-- Past the window's end no store is an event of the block (log 23). -/
theorem storeWords_of_outside {off : Nat} (vs : List Word) (h : 0x1000 ≤ off) : storeWords off vs = [] := by
  induction vs generalizing off with
  | nil => rfl
  | cons v vs ih =>
    rw [storeWords, if_neg (by simp only [Config.windowBytes]; omega), ih (by omega)]

/-- Everything consecutive stores can be: writes at or above the first offset, with no wrap-around (R13). -/
theorem mem_storeWords {off : Nat} {vs : List Word} {e : Event} (h : e ∈ storeWords off vs) :
    ∃ o v, e = st32 o v ∧ v ∈ vs ∧ off ≤ o.toNat := by
  induction vs generalizing off with
  | nil => cases h
  | cons v vs ih =>
    have tail : e ∈ storeWords (off + 4) vs → ∃ o v', e = st32 o v' ∧ v' ∈ v :: vs ∧ off ≤ o.toNat := fun h' => by
      obtain ⟨o, v', he, hv, ho⟩ := ih h'
      exact ⟨o, v', he, .tail v hv, by omega⟩
    by_cases hw : off < 0x1000
    · rw [storeWords_cons v vs hw] at h
      cases h with
      | head => exact ⟨_, v, rfl, .head vs, by rw [BitVec.toNat_ofNat]; omega⟩
      | tail _ h' => exact tail h'
    · rw [storeWords_of_outside _ (Nat.le_of_not_lt hw)] at h
      cases h

/-- With nothing pending, the slot timer ends the slot in WAIT and nothing happens outside it. -/
theorem step_of_nil {s : State} (h : s.pending = []) : step s = .next (timerEvent s) := by
  simp [step, agentStep, h]

/-- With an event pending, the step takes it. -/
theorem step_of_cons {s : State} {e : Event} {rest : List Event} (h : s.pending = e :: rest) :
    step s = takeEvent e (s.setPending rest) := by
  simp [step, agentStep, h]

/-- The step takes the first pending event, or the slot timer's. -/
theorem step_cases {s t : State} (h : step s = .next t) :
    (s.pending = [] ∧ t = timerEvent s) ∨
      ∃ e rest, s.pending = e :: rest ∧ takeEvent e (s.setPending rest) = .next t := by
  cases hp : s.pending with
  | nil => rw [step_of_nil hp] at h; injection h with h; exact .inl ⟨rfl, h.symm⟩
  | cons e rest => rw [step_of_cons hp] at h; exact .inr ⟨e, rest, rfl, h⟩

/-- Everything one event can do when it answers a next state. -/
theorem takeEvent_cases {e : Event} {s t : State} (h : takeEvent e s = .next t) :
    (∃ off, e = ld32 off ∧ off.toNat % 4 = 0 ∧ t = s.logRead (memRead s off)) ∨
    (∃ off v, e = st32 off v ∧ off.toNat % 4 = 0 ∧ memWrite off v s = .next t) ∨
    (e = waitIdleOp ∧ t = pollStatus s) ∨
    (∃ d, e = .datagram d ∧ d.length ≤ Config.maxDatagram ∧ t = deliver d s) ∨
    (e = .slotExpiry ∧ t = timerEvent s) ∨
    (∃ redraw, e = .reset redraw ∧ t = resetEvent redraw s) := by
  cases e with
  | host op =>
    cases op with
    | load bytes off =>
      simp only [takeEvent, hostEvent, hostLoad] at h
      split at h
      · rename_i hc
        simp only [accessInContract, Bool.and_eq_true, decide_eq_true_eq] at hc
        injection h with h
        exact .inl ⟨off, by rw [hc.1]; rfl, hc.2, h.symm⟩
      · cases h
    | store bytes off v =>
      simp only [takeEvent, hostEvent, hostStore] at h
      split at h
      · rename_i hc
        simp only [accessInContract, Bool.and_eq_true, decide_eq_true_eq] at hc
        exact .inr (.inl ⟨off, v, by rw [hc.1]; rfl, hc.2, h⟩)
      · cases h
    | waitIdle =>
      simp only [takeEvent, hostEvent] at h
      injection h with h
      exact .inr (.inr (.inl ⟨rfl, h.symm⟩))
  | datagram d =>
    simp only [takeEvent, networkEvent] at h
    split at h
    · cases h
    · rename_i hd
      injection h with h
      exact .inr (.inr (.inr (.inl ⟨d, rfl, Nat.le_of_not_lt hd, h.symm⟩)))
  | slotExpiry =>
    injection h with h
    exact .inr (.inr (.inr (.inr (.inl ⟨rfl, h.symm⟩))))
  | reset redraw =>
    injection h with h
    exact .inr (.inr (.inr (.inr (.inr ⟨redraw, rfl, h.symm⟩))))

/-- Everything a write to the window can do when it answers a next state: a command, or one register or buffer word. -/
theorem memWrite_cases {off : BitVec 12} {v : Word} {s t : State} (h : memWrite off v s = .next t) :
    (windowSlot off = .cmd ∧ commandWrite v s = .next t) ∨
    (windowSlot off = .crcDin ∧ t = s.setCrcDin v) ∨
    (windowSlot off = .rxLen ∧ s.busy = false ∧ t = s.setRxLen (v.extractLsb' 0 16)) ∨
    (∃ i, windowSlot off = .txBuf i ∧ t = s.writeTx i (bytes32 v)) ∨
    (∃ i, windowSlot off = .rxBuf i ∧ s.busy = false ∧ t = s.writeRx i (bytes32 v)) ∨
    t = s := by
  cases hw : windowSlot off <;> simp only [memWrite, hw] at h
  case cmd => exact .inl ⟨rfl, h⟩
  case crcDin => injection h with h; exact .inr (.inl ⟨rfl, h.symm⟩)
  case rxLen =>
    injection h with h
    split at h
    · exact .inr (.inr (.inr (.inr (.inr h.symm))))
    · exact .inr (.inr (.inl ⟨rfl, by simp_all, h.symm⟩))
  case txBuf i => injection h with h; exact .inr (.inr (.inr (.inl ⟨i, rfl, h.symm⟩)))
  case rxBuf i =>
    injection h with h
    split at h
    · exact .inr (.inr (.inr (.inr (.inr h.symm))))
    · exact .inr (.inr (.inr (.inr (.inl ⟨i, rfl, by simp_all, h.symm⟩))))
  all_goals
    injection h with h
    exact .inr (.inr (.inr (.inr (.inr h.symm))))

end Sys2Proof.Machine
end

