-- ==== Sys2Proof/Laws/Inversion.lean ====
section
/-!
SUPPORT. Inversion: all a command, an arrival, an expiry and a whole step can do when they answer a next state, each said
once with its guards, so that a rule over every step is one case analysis.
-/
namespace Sys2Proof.Machine

/-- Everything a command can do (R94): rejection, or its own effect after REJ has been cleared. -/
theorem exec_cases {i : Instr} {s t : State} (h : exec i s = .next t) :
    (s.busy = true ∧ t = s.reject) ∨
      (s.busy = false ∧
        ((i = .crcInit ∧ t = (s.accept.setCrcAcc Config.crcInitValue).raise .none) ∨
          (i = .crcFeed ∧ t = (s.accept.setCrcAcc (crcWord s.crcAcc s.crcDin)).raise .none) ∨
          (∃ len, i = .encode len ∧ 1012 < len ∧ t = (s.accept.raise .encodeTooLong).setTxv false) ∨
          (∃ len, i = .encode len ∧ len ≤ 1012 ∧
            t = encodeInto len (Config.seqDraw s.draws) s.accept.countDraw) ∨
          (i = .decode ∧
            t = (s.accept.setLdec (.verdict (decodeVerdict s.rxView s.rxLen.toNat))).raise
              (decodeVerdict s.rxView s.rxLen.toNat).err) ∨
          (i = .request ∧ s.txv = true ∧ s.txLen.toNat ≤ 1024 ∧
            t = (s.accept.emit (slice s.txView 0 s.txLen.toNat)).startWait) ∨
          (i = .request ∧ s.txv = false ∧ t = s.accept.raise .notEncoded))) := by
  cases hb : s.busy
  · refine .inr ⟨rfl, ?_⟩
    cases i <;>
      simp only [exec, execCrcInit, execCrcFeed, execEncode, execDecode, execRequest, gate_of_free _ hb] at h
    · injection h with h; exact .inl ⟨rfl, h.symm⟩
    · injection h with h; exact .inr (.inl ⟨rfl, h.symm⟩)
    · split at h <;> rename_i hl <;> injection h with h
      · exact .inr (.inr (.inl ⟨_, rfl, hl, h.symm⟩))
      · exact .inr (.inr (.inr (.inl ⟨_, rfl, Nat.le_of_not_lt hl, h.symm⟩)))
    · injection h with h; exact .inr (.inr (.inr (.inr (.inl ⟨rfl, h.symm⟩))))
    · split at h
      · split at h
        · cases h
        · rename_i ht hl
          injection h with h
          exact .inr (.inr (.inr (.inr (.inr (.inl ⟨rfl, ht, Nat.le_of_not_lt hl, h.symm⟩)))))
      · rename_i ht
        injection h with h
        exact .inr (.inr (.inr (.inr (.inr (.inr ⟨rfl, by simpa using ht, h.symm⟩)))))
  · cases i <;>
      simp only [exec, execCrcInit, execCrcFeed, execEncode, execDecode, execRequest, gate_of_busy _ hb] at h <;>
      (injection h with h; exact .inl ⟨rfl, h.symm⟩)

/-- What a write to CMD can do: rejection, a command's own effect, or the illegal command's report. -/
theorem commandWrite_cases {w : Word} {s t : State} (h : commandWrite w s = .next t) :
    (s.busy = true ∧ t = s.reject) ∨
      (s.busy = false ∧ ∃ i, decodeWord w = .ok i ∧ exec i s = .next t) ∨
      (s.busy = false ∧ (∃ e, decodeWord w = .error e) ∧ t = s.accept.raise .illegalCmd) := by
  unfold commandWrite at h
  split at h
  · rename_i i hi
    rcases exec_cases h with h' | ⟨hb, -⟩
    · exact .inl h'
    · exact .inr (.inl ⟨hb, i, hi, h⟩)
  · rename_i e he
    unfold illegalCommand at h
    rcases gate_cases s fun s => .next (s.raise .illegalCmd) with ⟨hb, hg⟩ | ⟨hb, hg⟩ <;> rw [hg] at h <;>
      injection h with h
    · exact .inl ⟨hb, h.symm⟩
    · exact .inr (.inr ⟨hb, ⟨e, he⟩, h.symm⟩)

/-- What an arrival can change, and how it leaves the correlator (R164, R170). -/
theorem arrive_frame (d : List Byte) (s : State) :
    let t := arrive d s
    t = { s with rx := t.rx, rxLen := t.rxLen, slots := t.slots, ldec := t.ldec, corr := t.corr, err := t.err } ∧
      t.rx = (s.capture d).rx ∧ t.slots = s.takeSlot.slots ∧
      ((t.corr = .matched ∧ t.err = .none ∧ t.ldec = .verdict .ok) ∨
        (t.corr = .timeout ∧ t.err = .timeout ∧ t.slots = 0) ∨
        (t.corr = s.corr ∧ t.err = s.err ∧ t.slots ≠ 0)) := by
  have h := arrive_cases d s
  dsimp only at h ⊢
  rcases h with ⟨-, -, he⟩ | ⟨-, he⟩ <;> rw [he]
  · exact ⟨rfl, rfl, rfl, .inl ⟨rfl, rfl, rfl⟩⟩
  · generalize (if decodeVerdict (s.capture d).rxView (s.capture d).rxLen.toNat = .ok then LastDecode.seqMismatch
      else .verdict (decodeVerdict (s.capture d).rxView (s.capture d).rxLen.toNat)) = l
    by_cases hz : ((s.capture d).takeSlot.setLdec l).slots = 0
    · rw [State.timeoutIfSpent_of_spent hz]; exact ⟨rfl, rfl, rfl, .inr (.inl ⟨rfl, rfl, hz⟩)⟩
    · rw [State.timeoutIfSpent_of_left hz]; exact ⟨rfl, rfl, rfl, .inr (.inr ⟨rfl, rfl, hz⟩)⟩

/-- A field an arrival does not write keeps its value. -/
theorem arrive_keeps {α : Type} (f : State → α) (d : List Byte) (s : State)
    (h : ∀ (s : State) rx rxLen slots ldec corr err,
      f { s with rx := rx, rxLen := rxLen, slots := slots, ldec := ldec, corr := corr, err := err } = f s) :
    f (arrive d s) = f s := by
  rw [(arrive_frame d s).1]; exact h ..

/-- What an expiry can change, and how it leaves the correlator (R169, R170). -/
theorem expire_frame (s : State) :
    let t := expire s
    t = { s with slots := t.slots, corr := t.corr, err := t.err } ∧ t.slots = s.takeSlot.slots ∧
      ((t.corr = .timeout ∧ t.err = .timeout ∧ t.slots = 0) ∨ (t.corr = s.corr ∧ t.err = s.err ∧ t.slots ≠ 0)) := by
  unfold expire
  by_cases hz : s.takeSlot.slots = 0
  · rw [State.timeoutIfSpent_of_spent hz]; exact ⟨rfl, rfl, .inl ⟨rfl, rfl, hz⟩⟩
  · rw [State.timeoutIfSpent_of_left hz]; exact ⟨rfl, rfl, .inr ⟨rfl, rfl, hz⟩⟩

/-- A field an expiry does not write keeps its value. -/
theorem expire_keeps {α : Type} (f : State → α) (s : State)
    (h : ∀ (s : State) slots corr err, f { s with slots := slots, corr := corr, err := err } = f s) :
    f (expire s) = f s := by
  rw [(expire_frame s).1]; exact h ..

/-- Everything a step can do when it answers a next state. -/
inductive StepKind (s t : State) : Prop
  /-- Nothing but that an event is consumed: an ignored write, a dropped datagram, the timer outside WAIT. -/
  | quiet (p : List Event) (h : t = s.setPending p)
  | read (p : List Event) (v : Word) (h : t = (s.setPending p).logRead v)
  | reject (hb : s.busy = true) (hc : ∃ w rest, s.pending = st32 0x000 w :: rest) (p : List Event)
      (h : t = (s.setPending p).reject)
  | runs (i : Instr) (hr : s.NextRuns i) (p : List Event) (h : exec i (s.setPending p) = .next t)
  | illegal (ha : s.NextAccepts) (p : List Event) (h : t = (s.setPending p).accept.raise .illegalCmd)
  | storeDin (hs : s.NextStores 0x00C) (p : List Event) (v : Word) (h : t = (s.setPending p).setCrcDin v)
  | storeRxLen (hb : s.busy = false) (p : List Event) (v : Half) (h : t = (s.setPending p).setRxLen v)
  | storeTx (off : BitVec 12) (i : Nat) (hs : s.NextStores off) (ho : off.toNat = 0x400 + i ∧ i < 1024)
      (p : List Event) (v : Word) (h : t = (s.setPending p).writeTx i (bytes32 v))
  | storeRx (off : BitVec 12) (i : Nat) (hb : s.busy = false) (hs : s.NextStores off)
      (ho : off.toNat = 0x800 + i ∧ i < 1024) (p : List Event) (v : Word)
      (h : t = (s.setPending p).writeRx i (bytes32 v))
  | arrives (d : List Byte) (hb : s.busy = true) (hd : s.NextArrives d) (p : List Event)
      (h : t = arrive d (s.setPending p))
  | expires (hb : s.busy = true) (hp : s.pending = [] ∨ ∃ rest, s.pending = .slotExpiry :: rest) (p : List Event)
      (h : t = expire (s.setPending p))
  | resets (hr : s.NextResets) (p : List Event) (redraw : Bool) (h : t = resetEvent redraw (s.setPending p))

theorem step_kind {s t : State} (h : step s = .next t) : StepKind s t := by
  rcases step_cases h with ⟨hp, rfl⟩ | ⟨e, rest, hp, he⟩
  · cases hb : s.busy
    · rw [timerEvent_of_free hb]; exact .quiet s.pending rfl
    · rw [timerEvent_of_busy hb]; exact .expires hb (.inl hp) s.pending rfl
  rcases takeEvent_cases he with ⟨off, rfl, h4, rfl⟩ | ⟨off, v, rfl, h4, hm⟩ | ⟨rfl, rfl⟩ | ⟨d, rfl, hd, rfl⟩ |
      ⟨rfl, rfl⟩ | ⟨r, rfl, rfl⟩
  · exact .read rest _ rfl
  · rcases memWrite_cases hm with ⟨hw, hc⟩ | ⟨hw, rfl⟩ | ⟨-, hb, rfl⟩ | ⟨i, hw, rfl⟩ | ⟨i, hw, hb, rfl⟩ | rfl
    · obtain rfl : off = 0x000 := BitVec.eq_of_toNat_eq ((windowSlot_inv off).2.2.1 hw)
      rcases commandWrite_cases hc with ⟨hb, rfl⟩ | ⟨hb, i, hi, hx⟩ | ⟨hb, -, rfl⟩
      · exact .reject hb ⟨v, rest, hp⟩ rest rfl
      · exact .runs i ⟨hb, v, rest, hp, hi⟩ rest hx
      · exact .illegal ⟨hb, v, rest, hp⟩ rest rfl
    · obtain rfl : off = 0x00C := BitVec.eq_of_toNat_eq ((windowSlot_inv off).2.2.2.1 hw)
      exact .storeDin ⟨h4, v, rest, hp⟩ rest v rfl
    · exact .storeRxLen hb rest _ rfl
    · exact .storeTx off i ⟨h4, v, rest, hp⟩ ((windowSlot_inv off).1 i hw) rest v rfl
    · exact .storeRx off i hb ⟨h4, v, rest, hp⟩ ((windowSlot_inv off).2.1 i hw) rest v rfl
    · exact .quiet rest rfl
  · unfold pollStatus
    split
    · exact .read (pollAgain rest) s.status rfl
    · exact .read rest s.status rfl
  · cases hb : s.busy
    · rw [deliver_of_free d (show (s.setPending rest).busy = false from hb)]; exact .quiet rest rfl
    · rw [deliver_of_busy d (show (s.setPending rest).busy = true from hb)]
      exact .arrives d hb ⟨hd, rest, hp⟩ rest rfl
  · cases hb : s.busy
    · rw [timerEvent_of_free (show (s.setPending rest).busy = false from hb)]; exact .quiet rest rfl
    · rw [timerEvent_of_busy (show (s.setPending rest).busy = true from hb)]
      exact .expires hb (.inr ⟨rest, hp⟩) rest rfl
  · exact .resets ⟨r, rest, hp⟩ rest r rfl

end Sys2Proof.Machine
end

