-- ==== Sys2Proof/Laws/PerInstr.lean ====
section
/-!
SUPPORT. The family FormatC: each instruction's command word has the fields format C gives it (spec/30_encoding.md R80,
R83): OP the row's opcode, RSV zero, IMM the instruction's own operand.
-/
namespace Sys2Proof.Laws.FormatC

/-- The fields of a well-formed instruction's command word. -/
def Statement (i : Instr) : Prop :=
  i.wf = true →
    opField (encodeWord i) = i.opcode ∧ rsvField (encodeWord i) = 0 ∧ (immField (encodeWord i)).toNat = i.imm

theorem crcInit : Statement .crcInit := fun _ => by decide

theorem crcFeed : Statement .crcFeed := fun _ => by decide

theorem decode : Statement .decode := fun _ => by decide

theorem request : Statement .request := fun _ => by decide

/-- The three fields of a word put together from three parts are the parts. -/
theorem fields_of_append (imm : BitVec 16) (rsv op : BitVec 8) :
    opField (imm ++ rsv ++ op : Word) = op ∧ rsvField (imm ++ rsv ++ op : Word) = rsv ∧
      immField (imm ++ rsv ++ op : Word) = imm := by
  refine ⟨?_, ?_, ?_⟩ <;> ext k hk <;>
    simp only [opField, rsvField, immField, BitVec.getElem_extractLsb', BitVec.getLsbD_append]
  · simp [hk]
  · have h : ¬ 8 + k < 8 := by omega
    have e : 8 + k - 8 = k := by omega
    simp [h, e, hk]
  · have h : ¬ 16 + k < 8 := by omega
    have h' : ¬ 16 + k - 8 < 8 := by omega
    have e : 16 + k - 8 - 8 = k := by omega
    simp [h, h', e, hk]

theorem encode (len : Nat) : Statement (.encode len) := by
  intro h
  simp only [Instr.wf, decide_eq_true_eq] at h
  have := fields_of_append (BitVec.ofNat 16 len) 0 0x03
  refine ⟨this.1, this.2.1, ?_⟩
  simp only [encodeWord, Instr.imm, Instr.opcode, this.2.2]
  simpa using h

end Sys2Proof.Laws.FormatC
end

