-- ==== Sys2Proof/Tests/Slice0.lean ====
section
/-!
SUPPORT. Tests of the model against spec/95_test_vectors.md (each names its vector) and words written out from
spec/30_encoding.md, and, for every statement with hypotheses, a witness that meets all of them.
-/
namespace Sys2Proof.Tests
open Sys2Proof.Machine

/-- One field of a next state; none after a fault or a refusal. -/
def after {α : Type} (f : State → α) : Result → Option α
  | .next s => some (f s)
  | .fault _ => none
  | .refused _ => none

/-- Frame E3. -/
def frameE3 : List Byte :=
  [0x4C, 0x48, 0x46, 0x00, 0xEF, 0xBE, 0x04, 0x00, 0x41, 0x42, 0x43, 0x44, 0x2E, 0x4F, 0x77, 0x6C]

/-- The response of vector C5, sequence number 0x0042. -/
def frameC5 : List Byte :=
  [0x4C, 0x48, 0x46, 0x00, 0x42, 0x00, 0x04, 0x00, 0x4F, 0x4B, 0x4F, 0x4B, 0x19, 0x04, 0xFE, 0x3A]

/-- Frame D12: payload of 5 bytes, unpadded. -/
def frameD12 : List Byte :=
  [0x4C, 0x48, 0x46, 0x00, 0x42, 0x00, 0x05, 0x00, 0x01, 0x02, 0x03, 0x04, 0x05, 0x67, 0x53, 0x41, 0x2F]

/-- The state of an outstanding request for sequence number `seq` with `slots` slots left. -/
def waiting (seq : Half) (slots : Fin 4) (es : List Event) : State :=
  { State.reset with
    corr := .wait, corrSeq := seq, txSeq := seq, slots := slots, txLen := 12, sent := [List.replicate 12 0],
    pending := es }

/-- Reset with events pending. -/
def idle (es : List Event) : State := State.reset.setPending es

/-- A frame in RX with its length in RX_LEN. -/
def received (bs : List Byte) (n : Half) : State := (State.reset.writeRx 0 bs).setRxLen n

/-! ## Well-formedness and decoding -/

theorem test_wf_refuses_long_length : (Instr.encode 65536).wf = false := by decide
theorem test_wf_accepts_longest_length : (Instr.encode 65535).wf = true := by decide

-- R80, R81: IMM in bits 31:16, RSV in bits 15:8, OP in bits 7:0, written out bit by bit.
theorem test_decode_crcInit : decodeWord 0b0000000000000000_00000000_00000001 = .ok .crcInit := by decide
theorem test_decode_crcFeed : decodeWord 0b0000000000000000_00000000_00000010 = .ok .crcFeed := by decide
theorem test_decode_encode : decodeWord 0b1000000000000101_00000000_00000011 = .ok (.encode 0x8005) := by decide
theorem test_decode_decode : decodeWord 0b0000000000000000_00000000_00000100 = .ok .decode := by decide
theorem test_decode_request : decodeWord 0b0000000000000000_00000000_00000101 = .ok .request := by decide
theorem test_decode_first_unused : decodeWord 0x00000006 = .error (.unknownOpcode 6) := by decide
theorem test_decode_imm_on_decode : decodeWord 0x00010004 = .error (.immediateNotZero 1) := by decide
theorem test_encode_word : encodeWord (.encode 520) = 0x02080003 := by decide
theorem test_table_word : decodeTableWord 32 0x03F50003 = some (.encode 1013) := by decide

/-! ## The commands -/

-- K23, K24.
theorem test_crcInit_restarts :
    after (fun t => (t.crcAcc, t.status)) (exec .crcInit { State.reset with crcAcc := 0x12345678 }) =
      some (0xFFFFFFFF, 0) := by decide
theorem test_crcInit_rejected :
    after (fun t => (t.crcAcc, t.rej)) (exec .crcInit { waiting 0 3 [] with crcAcc := 0x12345678 }) =
      some (0x12345678, true) := by decide
-- K20, K22.
theorem test_crcFeed_from_reset : after (·.crcAcc) (exec .crcFeed State.reset) = some 0xC704DD7B := by decide +kernel
theorem test_crcFeed_residue :
    after (·.crcAcc) (exec .crcFeed { State.reset with crcAcc := 0x7D24A31B, crcDin := 0x7D24A31B }) = some 0 := by
  decide +kernel
-- K8, K9b.
theorem test_checksum_words : checksum [0x12345678, 0x9ABCDEF0] = 0x7D24A31B := by decide +kernel
theorem test_checksum_header : checksum [0x0046484C, 0x00001234] = 0x4339CE98 := by decide +kernel
-- E3, with its draw.
theorem test_encode_frame :
    slice (encodeInto 4 0xBEEF (State.reset.writeTx 8 [0x41, 0x42, 0x43, 0x44])).txView 0 16 = frameE3 := by
  decide +kernel
-- E10: the padding overwrites staged bytes beyond L.
theorem test_encode_pads :
    slice (encodeInto 2 0x0101 (State.reset.writeTx 8 [0x41, 0x42, 0x43, 0x44])).txView 0 16 =
      [0x4C, 0x48, 0x46, 0x00, 0x01, 0x01, 0x02, 0x00, 0x41, 0x42, 0x00, 0x00, 0xA1, 0x55, 0x8D, 0x0A] := by
  decide +kernel
-- D2, D13.
theorem test_decode_bad_preamble :
    after (·.status) (exec .decode (received (0x4D :: frameE3.tail) 16)) = some 0x00001010 := by decide +kernel
theorem test_decode_uncovered_byte :
    after (·.status) (exec .decode (received (frameD12.set 12 0xFA) 17)) = some 0 := by decide +kernel
-- R3 of 95_test_vectors.md, and P3's REQUEST.
theorem test_request_not_encoded : after (·.status) (exec .request State.reset) = some 0x00000070 := by decide
theorem test_request_emits :
    after (fun t => (t.sent, t.status)) (exec .request (encodeInto 0 0x0007 State.reset)) =
      some ([[0x4C, 0x48, 0x46, 0x00, 0x07, 0x00, 0x00, 0x00, 0xCD, 0x80, 0xEB, 0x2A]], 0x00000D01) := by
  decide +kernel

/-! ## Events, the window, reset -/

-- C1's last expiry, C5, C3's datagram from a first slot, and X1, X5, X8.
theorem test_last_expiry : after (·.status) (step (waiting 0 1 [.slotExpiry])) = some 0x00000340 := by decide
theorem test_match_in_last_slot :
    after (fun t => (t.status, slice t.rxView 8 12)) (step (waiting 0x0042 1 [.datagram frameC5])) =
      some (0x00000200, [0x4F, 0x4B, 0x4F, 0x4B]) := by decide +kernel
theorem test_runt_uses_slot :
    after (fun t => (t.status, t.rxLen)) (step (waiting 0x0007 2 [.datagram [0, 0, 0]])) = some (0x00002501, 3) := by
  decide +kernel
theorem test_wrong_sequence :
    after (·.status) (step (waiting 0xC0DE 3 [.datagram frameC5])) = some 0x00004901 := by decide +kernel
theorem test_illegal_zero_word : after (·.status) (step (idle [st32 0x000 0])) = some 0x00000050 := by decide
theorem test_illegal_rsv : after (·.status) (step (idle [st32 0x000 0x00000103])) = some 0x00000050 := by decide
theorem test_rxlen_keeps_low_half :
    after (fun t => memRead t 0x018) (step (idle [st32 0x018 0x00010010])) = some 0x00000010 := by decide
-- R13, R93: the last word of the window, and one past it.
theorem test_txLoad_window_end :
    txLoadOps 765 [7, 8] = [st32 0xFFC 7] ∧ txLoadOps 766 [7] = [] ∧ rxLoadOps [1, 2] = [st32 0x800 1, st32 0x804 2] := by
  decide
-- R1 of 95_test_vectors.md, C9.
theorem test_reset_ends_wait :
    after (fun t => (t.status, t.crcAcc, t.sent.length)) (step (waiting 0 3 [.reset false])) =
      some (0, 0xFFFFFFFF, 1) := by decide
-- X13's first two words, before any trailer is looked at.
theorem test_header_words :
    (let t := encodeInto 4 0xBEEF State.reset; (memRead t 0x400, memRead t 0x404)) = (0x0046484C, 0x0004BEEF) := by
  decide +kernel

/-! ## Witnesses: each hypothesis list of a statement is met -/

theorem witness_DecodeInvertsEncode : (Instr.encode 65535).wf = true := by decide
theorem witness_EncodeInvertsDecode : decodeWord 0xFFFF0003 = .ok (.encode 65535) := by decide
theorem witness_WordsSelectTableRows : decodeWord 0x00000003 = .ok (.encode 0) := by decide
theorem witness_IllegalWordsOnlyReport_opcode :
    decodeWord 0x00000000 = .error (.unknownOpcode 0) ∧ State.reset.busy = false := by decide
theorem witness_IllegalWordsOnlyReport_rsv :
    decodeWord 0x00000103 = .error (.reservedNotZero 1) ∧ State.reset.busy = false := by decide
theorem witness_CrcInitStartsChecksum_free :
    State.reset.busy = false ∧ ∃ t, exec .crcInit State.reset = .next t := ⟨by decide, _, rfl⟩
theorem witness_CrcInitStartsChecksum_busy : (waiting 0 3 []).busy = true := by decide
theorem witness_CrcInitStartsChecksum_illegal :
    (opField 0x00000101 = 0x01 ∧ rsvField 0x00000101 ≠ 0) ∧
      (opField 0x00010001 = 0x01 ∧ immField 0x00010001 ≠ 0) ∧ State.reset.busy = false := by decide
theorem witness_CrcFeedProcessesOneWord_busy : (waiting 0 1 []).busy = true := by decide
theorem witness_CrcFeedProcessesOneWord_illegal :
    (opField 0x00000102 = 0x02 ∧ rsvField 0x00000102 ≠ 0) ∧
      (opField 0x00010002 = 0x02 ∧ immField 0x00010002 ≠ 0) ∧ State.reset.busy = false := by decide
theorem witness_FeedsAccumulateChecksum : State.reset.busy = false ∧ State.reset.crcAcc = 0xFFFFFFFF := by decide
theorem witness_VerdictIsFirstFailingCheck :
    ∀ i, i < 16 → viewOf frameE3 i = viewOf (frameE3 ++ [1]) i := by decide
theorem witness_BitFlipChangesChecksum : 2 < [0x0046484C, 0x0004BEEF, (0x44434241 : Word)].length ∧ 31 < 32 := by
  decide
theorem witness_EncodeBuildsFrameInPlace : State.reset.busy = false ∧ 1012 ≤ 1012 := by decide
theorem witness_OverlongEncodeClearsTxv : State.reset.busy = false ∧ 1012 < 1013 := by decide
theorem witness_EncodedFrameLayout : (List.replicate 65535 (0 : Byte)).length < 65536 := by
  rw [List.length_replicate]; decide
theorem witness_EncodedFrameRoundTrips :
    (List.replicate 1012 (0x5A : Byte)).length % 4 = 0 ∧ (List.replicate 1012 (0x5A : Byte)).length ≤ 1012 := by
  rw [List.length_replicate]; decide
theorem witness_OnlyAlignedFramesDecode : [(0x41 : Byte), 0x42, 0x43].length ≤ 1012 := by decide
theorem witness_DecodeReportsVerdict : (received frameE3 16).busy = false := by decide
theorem witness_UncoveredBytesDoNotMatter :
    hdrLen (viewOf frameD12) + 12 = 17 ∧
      ∀ i, i < 17 → ¬(8 + 4 * (hdrLen (viewOf frameD12) / 4) ≤ i ∧ i < 8 + hdrLen (viewOf frameD12)) →
        viewOf frameD12 i = viewOf (frameD12.set 12 0xFA) i := by decide +kernel
-- D2, D6, D5.
theorem witness_DamagedFrameRejected_preamble :
    decodeVerdict (viewOf frameE3) 16 = .ok ∧ le16 (viewOf (0x4D :: frameE3.tail)) 0 ≠ le16 (viewOf frameE3) 0 := by
  decide +kernel
theorem witness_DamagedFrameRejected_bit :
    let B' : View := fun i => if i = 9 then viewOf frameE3 9 ^^^ BitVec.twoPow 8 4 else viewOf frameE3 i
    4 < 8 ∧ (2 ≤ 9 ∧ 9 < 8 + 4 * (hdrLen (viewOf frameE3) / 4) ∧ 9 ≠ 6 ∧ 9 ≠ 7) ∧
      B' 9 = viewOf frameE3 9 ^^^ BitVec.twoPow 8 4 ∧ ∀ i, i ≠ 9 → B' i = viewOf frameE3 i :=
  ⟨by decide, by decide +kernel, rfl, fun _ hi => if_neg hi⟩
theorem witness_DamagedFrameRejected_trailer :
    (∀ i, i < 8 + hdrLen (viewOf frameE3) → viewOf (frameE3.set 15 0xEC) i = viewOf frameE3 i) ∧
      le32 (viewOf (frameE3.set 15 0xEC)) (8 + hdrLen (viewOf frameE3)) ≠
        le32 (viewOf frameE3) (8 + hdrLen (viewOf frameE3)) := by decide +kernel

/-- A valid encoded frame of `len` bytes of TX. -/
def encoded (len : Half) : State := { State.reset with txv := true, txLen := len }

theorem witness_RequestSendsFrameAndWaits :
    (encoded 1024).busy = false ∧ (encoded 1024).txv = true ∧ (encoded 1024).txLen.toNat ≤ 1024 := by decide
theorem witness_RequestWithoutFrameReports : State.reset.busy = false ∧ State.reset.txv = false := by decide
theorem witness_RequestBeyondBufferFaults :
    (encoded 1025).busy = false ∧ (encoded 1025).txv = true ∧ 1024 < (encoded 1025).txLen.toNat := by decide

/-- The next step is an arrival. -/
theorem nextArrives (seq : Half) (slots : Fin 4) (d : List Byte) (h : d.length ≤ Config.maxDatagram) :
    (waiting seq slots [.datagram d]).NextArrives d := ⟨h, [], rfl⟩

theorem witness_MatchIsValidAndCorrelated :
    let s := waiting 0x0042 3 [.datagram frameC5]
    s.busy = true ∧ s.NextArrives frameC5 ∧ s.slots ≠ 0 ∧ after (·.corr) (step s) = some .matched :=
  ⟨by decide, nextArrives _ _ _ (by decide), by decide, by decide +kernel⟩
theorem witness_DiscardedDatagramUsesSlot :
    let s := waiting 0xC0DE 1 [.datagram frameC5]
    s.busy = true ∧ s.slots ≠ 0 ∧ s.NextArrives frameC5 ∧
      ¬(decodeVerdict (viewOf frameC5) frameC5.length = .ok ∧ hdrSeq (viewOf frameC5) = s.corrSeq) :=
  ⟨by decide, by decide, nextArrives _ _ _ (by decide), by decide +kernel⟩
theorem witness_DatagramOutsideWaitDropped :
    let s := idle [.datagram frameC5]
    s.busy = false ∧ frameC5.length ≤ 65535 ∧ s.pending = .datagram frameC5 :: [] := by decide
theorem witness_OversizeAndRuntDatagrams_long :
    let d := List.replicate 1025 (0 : Byte)
    let s := waiting 0 3 [.datagram d]
    s.busy = true ∧ s.slots ≠ 0 ∧ s.NextArrives d ∧ (1024 < d.length ∨ d.length < 8) := by
  refine ⟨by decide, by decide, nextArrives _ _ _ ?_, ?_⟩ <;> rw [List.length_replicate] <;> decide
theorem witness_OversizeAndRuntDatagrams_short :
    let d := List.replicate 7 (0 : Byte)
    let s := waiting 0 1 [.datagram d]
    s.busy = true ∧ s.slots ≠ 0 ∧ s.NextArrives d ∧ (1024 < d.length ∨ d.length < 8) :=
  ⟨by decide, by decide, nextArrives _ _ _ (by decide), by decide⟩
theorem witness_SlotExpiryTakesSlot_last :
    let s := waiting 0 1 [.slotExpiry]
    s.busy = true ∧ s.slots ≠ 0 ∧ s.pending = .slotExpiry :: [] ∧ s.slots.val = 1 := by decide
theorem witness_SlotExpiryTakesSlot_more :
    let s := waiting 0 3 [.slotExpiry]
    s.busy = true ∧ s.slots ≠ 0 ∧ s.pending = .slotExpiry :: [] ∧ (2 : Fin 4) ≠ 0 ∧ s.slots.val = (2 : Fin 4).val + 1 := by
  decide
theorem witness_ThreePollingEventsEndWait :
    let es : List Event := [.slotExpiry, .datagram frameE3, .slotExpiry]
    es.length = 3 ∧ es.all Event.isPolling = true ∧ (waiting 0 3 (es ++ [ld32 0x004])).pending = es ++ [ld32 0x004] := by
  decide
theorem witness_FairTimerEndsWait : (waiting 0 3 []).pending = [] := by decide
theorem witness_WaitIdleEnds_nothing_behind : (waiting 0 3 [waitIdleOp]).pending = waitIdleOp :: [] := by decide
-- A host operation next, and another agent's event next.
theorem witness_WaitIdleEnds :
    let rest : List Event := [.datagram frameE3, ld32 0x004, .slotExpiry, .reset true]
    (waiting 0 3 (waitIdleOp :: rest)).pending = waitIdleOp :: rest ∧
      ∀ d, Event.datagram d ∈ rest → d.length ≤ 65535 := by
  refine ⟨rfl, fun d hd => ?_⟩
  simp only [ld32, List.mem_cons, Event.datagram.injEq, reduceCtorEq, List.not_mem_nil, or_false] at hd
  rw [hd]; decide
theorem witness_WaitIdleEnds_host_next :
    (waiting 0 3 (waitIdleOp :: [ld32 0x004])).pending = waitIdleOp :: [ld32 0x004] ∧
      ∀ d, Event.datagram d ∈ [ld32 0x004] → d.length ≤ 65535 := ⟨rfl, fun d hd => by simp [ld32] at hd⟩
theorem witness_BusyRejectsEveryCommand : (waiting 0 2 []).busy = true := by decide
theorem witness_TieBreakDecidesOutcome :
    let s := waiting 0x0042 1 []
    s.busy = true ∧ s.slots = 1 ∧ decodeVerdict (viewOf frameC5) frameC5.length = .ok ∧
      hdrSeq (viewOf frameC5) = s.corrSeq := by decide +kernel

-- The window's clauses at the ends of their ranges.
theorem witness_WindowReads :
    (0xFFC : BitVec 12).toNat % 4 = 0 ∧ (idle [ld32 0xFFC]).pending = ld32 0xFFC :: [] := by decide
theorem witness_WindowReads_ranges :
    (windowSlot 0x400, windowSlot 0x7FC, windowSlot 0x800, windowSlot 0xBFC) =
        (.txBuf 0, .txBuf 1020, .rxBuf 0, .rxBuf 1020) ∧
      (windowSlot 0x020, windowSlot 0x3FC, windowSlot 0xC00, windowSlot 0xFFC) =
        (.unmapped, .unmapped, .unmapped, .unmapped) := by decide
theorem witness_WindowWrites :
    (0x7FC : BitVec 12).toNat % 4 = 0 ∧ (idle [st32 0x7FC 1]).pending = st32 0x7FC 1 :: [] := by decide
theorem witness_WindowWrites_free : State.reset.busy = false ∧ (0xBFC : BitVec 12).toNat ≤ 0xBFC := by decide
theorem witness_WindowWrites_busy : (waiting 0 3 []).busy = true ∧ 0x800 ≤ (0x800 : BitVec 12).toNat := by decide
theorem witness_ReservedReadZeroIgnoreWrites :
    (0x020 ≤ (0x020 : BitVec 12).toNat ∧ (0x3FC : BitVec 12).toNat ≤ 0x3FC) ∧ 0xC00 ≤ (0xC00 : BitVec 12).toNat := by
  decide
theorem witness_ReceiveSideLockedWhileBusy : (waiting 0 3 []).busy = true ∧ 0 < 256 ∧ 255 < 256 := by decide
theorem witness_StoredBufferWordReadsBack_tx :
    (0x7FC : BitVec 12).toNat % 4 = 0 ∧ 0x400 ≤ (0x7FC : BitVec 12).toNat ∧ (0x7FC : BitVec 12).toNat < 0x800 ∧
      (0x400 : BitVec 12) ≠ 0x7FC := by decide
theorem witness_StoredBufferWordReadsBack_rx :
    (0x800 : BitVec 12).toNat % 4 = 0 ∧ 0x800 ≤ (0x800 : BitVec 12).toNat ∧ (0x800 : BitVec 12).toNat < 0xC00 ∧
      State.reset.busy = false := by decide
-- X12.
theorem witness_NarrowOrMisalignedRefused :
    2 ≠ 4 ∧ (0x002 : BitVec 12).toNat % 4 ≠ 0 ∧
      (idle [.host (.load 4 0x002)]).pending = .host (.load 4 0x002) :: [] ∧
      (idle [.host (.store 2 0x000 1)]).pending = .host (.store 2 0x000 1) :: [] := by decide
theorem witness_BusAddressSelectsOffset : windowOffset Config.base = some 0 := by
  simp [windowOffset, Config.windowBytes]

/-! Witnesses of the whole-machine rules: a step that answers a next state and changes what the rule is about. -/

theorem witness_OnlyCrcCommandsWriteCrcAcc :
    let s := (idle [st32 0x000 0x00000001]).setCrcAcc 5
    ∃ t, step s = .next t ∧ t.crcAcc ≠ s.crcAcc := ⟨_, rfl, by decide⟩
theorem witness_OnlyHostWritesCrcDin :
    let s := waiting 0 3 [st32 0x00C 7]
    ∃ t, step s = .next t ∧ t.crcDin ≠ s.crcDin := ⟨_, rfl, by decide⟩
theorem witness_OnlyEncodeWritesFrameRegisters :
    let s := idle [st32 0x000 0x00000003]
    ∃ t, step s = .next t ∧ (t.txLen ≠ s.txLen ∨ t.txSeq ≠ s.txSeq) := ⟨_, rfl, .inl (by decide)⟩
theorem witness_OnlyRequestEmits : ∃ t, step ((encoded 12).setPending [command .request]) = .next t := ⟨_, rfl⟩
theorem witness_TxByteWriters :
    let s := (idle [st32 0x400 1]).writeTx 0 [0]
    ∃ t, step s = .next t ∧ t.txView 0 ≠ s.txView 0 := ⟨_, rfl, by decide⟩
theorem witness_RxByteWriters_store :
    let s := (idle [st32 0xBFC 1]).writeRx 1020 [0]
    ∃ t, step s = .next t ∧ t.rxView 1020 ≠ s.rxView 1020 := ⟨_, rfl, by decide⟩
theorem witness_RxByteWriters_datagram :
    let s := (waiting 0 3 [.datagram [1]]).writeRx 0 [0]
    ∃ t, step s = .next t ∧ t.rxView 0 ≠ s.rxView 0 := ⟨_, rfl, by decide +kernel⟩
theorem witness_CorrelatorTransitions :
    let s := waiting 0 1 [.slotExpiry]
    ∃ t, step s = .next t ∧ t.corr ≠ s.corr := ⟨_, rfl, by decide⟩
theorem witness_ErrorReportsLast_err_rej :
    let s := { idle [command .request] with rej := true }
    ∃ t, step s = .next t ∧ t.err ≠ s.err ∧ s.rej = true ∧ t.rej = false := ⟨_, rfl, by decide⟩
theorem witness_ErrorReportsLast_rej_rises :
    let s := waiting 0 3 [command .decode]
    ∃ t, step s = .next t ∧ s.rej = false ∧ t.rej = true := ⟨_, rfl, by decide⟩
theorem witness_ErrorReportsLast_ldec :
    let s := waiting 0 3 [.datagram []]
    ∃ t, step s = .next t ∧ t.ldec ≠ s.ldec := ⟨_, rfl, by decide +kernel⟩
theorem witness_ErrorReportsLast_reset : (waiting 0 3 [.reset true]).NextResets := ⟨true, [], rfl⟩
theorem witness_WaitShieldsBlockFromHost :
    let s := waiting 0 3 [st32 0x400 1]
    s.busy = true ∧ s.pending = .host (.store 4 0x400 1) :: [] ∧ ∃ t, step s = .next t :=
  ⟨by decide, rfl, _, rfl⟩

/-- A state of a run that waits for its first datagram meets the invariant. -/
theorem waiting_inv (es : List Event) : (waiting 0x0042 3 es).Inv := by constructor <;> simp [waiting, State.reset] <;> decide

theorem witness_StepKeepsInvariant :
    (waiting 0x0042 3 [.slotExpiry]).Inv ∧ ∃ t, step (waiting 0x0042 3 [.slotExpiry]) = .next t :=
  ⟨waiting_inv _, _, rfl⟩
theorem witness_NoFaultFromInvariant : (waiting 0x0042 3 [.datagram frameC5]).Inv := waiting_inv _
theorem witness_ResetValues : (waiting 0 3 [.reset false]).pending = .reset false :: [] := by decide
theorem witness_ResetEndsWait :
    let s := waiting 0 3 [.reset true, .datagram frameE3]
    s.busy = true ∧ frameE3.length ≤ 65535 ∧ s.pending = .reset true :: .datagram frameE3 :: [] := by decide
theorem witness_StepRunsDecodedCommand :
    (idle [st32 0x000 0x00000004]).pending = st32 0x000 0x00000004 :: [] ∧ decodeWord 0x00000004 = .ok .decode := by
  decide
theorem witness_StepRunsDecodedCommand_illegal :
    (idle [st32 0x000 0xFF]).pending = st32 0x000 0xFF :: [] ∧ decodeWord 0xFF = .error (.unknownOpcode 0xFF) := by
  decide
theorem witness_EndedRunKeepsOutcome :
    let s := idle [.datagram frameE3, .slotExpiry]
    s.Ended ∧ s.pending.all Event.isPolling = true :=
  ⟨⟨by decide, by decide⟩, by decide⟩
theorem witness_EndedRunKeepsOutcome_nothing : State.reset.Ended ∧ State.reset.pending = [] :=
  ⟨⟨by decide, by decide⟩, rfl⟩
theorem witness_ImpossibleDatagramRefused :
    65535 < (List.replicate 65536 (0 : Byte)).length ∧
      (idle [.datagram (List.replicate 65536 0)]).pending = .datagram (List.replicate 65536 0) :: [] :=
  ⟨by rw [List.length_replicate]; decide, rfl⟩

end Sys2Proof.Tests
end

section
/-!
PROOFS. The register window (spec/20_memory.md R54 to R59): the host's access contract, what a read and a write of each
slot of the map do, and the obligations about them.
-/
namespace Sys2Proof.Machine

/-! The access contract (R54). -/

theorem accessInContract_word {off : BitVec 12} (h : off.toNat % 4 = 0) : accessInContract 4 off = true := by
  simp [accessInContract, h]

theorem accessInContract_eq_false {bytes : Nat} {off : BitVec 12} (h : bytes ≠ 4 ∨ off.toNat % 4 ≠ 0) :
    accessInContract bytes off = false := by
  simp only [accessInContract, Bool.and_eq_false_iff, decide_eq_false_iff_not]
  exact h

theorem hostLoad_word {off : BitVec 12} (s : State) (h : off.toNat % 4 = 0) :
    hostLoad 4 off s = .next (s.logRead (memRead s off)) :=
  if_pos (accessInContract_word h)

theorem hostStore_word {off : BitVec 12} (v : Word) (s : State) (h : off.toNat % 4 = 0) :
    hostStore 4 off v s = memWrite off v s :=
  if_pos (accessInContract_word h)

theorem hostLoad_refused {bytes : Nat} {off : BitVec 12} (s : State) (h : bytes ≠ 4 ∨ off.toNat % 4 ≠ 0) :
    hostLoad bytes off s = .refused (.accessOutsideContract .read bytes off) := by
  simp [hostLoad, accessInContract_eq_false h]

theorem hostStore_refused {bytes : Nat} {off : BitVec 12} (v : Word) (s : State)
    (h : bytes ≠ 4 ∨ off.toNat % 4 ≠ 0) :
    hostStore bytes off v s = .refused (.accessOutsideContract .write bytes off) := by
  simp [hostStore, accessInContract_eq_false h]

/-! The step that takes a host access. -/

theorem step_of_load {s : State} {bytes : Nat} {off : BitVec 12} {rest : List Event}
    (h : s.pending = .host (.load bytes off) :: rest) : step s = hostLoad bytes off (s.setPending rest) :=
  step_of_cons h

theorem step_of_store {s : State} {bytes : Nat} {off : BitVec 12} {v : Word} {rest : List Event}
    (h : s.pending = .host (.store bytes off v) :: rest) : step s = hostStore bytes off v (s.setPending rest) :=
  step_of_cons h

/-- A read sees the block alone, not the agents' remaining steps or the values read before (R55, R60). -/
theorem memRead_pending_hostReads (s : State) (off : BitVec 12) (es : List Event) (rs : List Word) :
    memRead { s with pending := es, hostReads := rs } off = memRead s off := rfl

theorem step_ld32 {s : State} {off : BitVec 12} {rest : List Event} (ha : off.toNat % 4 = 0)
    (h : s.pending = ld32 off :: rest) :
    step s = .next { s with pending := rest, hostReads := s.hostReads ++ [memRead s off] } := by
  rw [step_of_load h, hostLoad_word _ ha]
  rfl

theorem step_st32 {s : State} {off : BitVec 12} {v : Word} {rest : List Event} (ha : off.toNat % 4 = 0)
    (h : s.pending = st32 off v :: rest) : step s = memWrite off v { s with pending := rest } := by
  rw [step_of_store h, hostStore_word _ _ ha]
  rfl

/-! Reads by the map (R55). -/

section Reads
variable (s : State) {off : BitVec 12}

theorem memRead_cmd : memRead s 0x000 = 0 := rfl
theorem memRead_status : memRead s 0x004 = s.status := rfl
theorem memRead_crcAcc : memRead s 0x008 = s.crcAcc := rfl
theorem memRead_crcDin : memRead s 0x00C = s.crcDin := rfl
theorem memRead_txLen : memRead s 0x010 = s.txLen.setWidth 32 := rfl
theorem memRead_txSeq : memRead s 0x014 = s.txSeq.setWidth 32 := rfl
theorem memRead_rxLen : memRead s 0x018 = s.rxLen.setWidth 32 := rfl
theorem memRead_corrSeq : memRead s 0x01C = s.corrSeq.setWidth 32 := rfl

theorem memRead_txBuf (h : 0x400 ≤ off.toNat) (h' : off.toNat < 0x800) :
    memRead s off = le32 s.txView (off.toNat - 0x400) := by
  simp only [memRead, windowSlot_of_tx h h']

theorem memRead_rxBuf (h : 0x800 ≤ off.toNat) (h' : off.toNat < 0xC00) :
    memRead s off = le32 s.rxView (off.toNat - 0x800) := by
  simp only [memRead, windowSlot_of_rx h h']

theorem memRead_unmapped (h : (0x020 ≤ off.toNat ∧ off.toNat ≤ 0x3FC) ∨ 0xC00 ≤ off.toNat) :
    memRead s off = 0 := by
  simp only [memRead, windowSlot_of_unmapped h]

end Reads

/-! Writes by the map (R56 to R59). -/

section Writes
variable {s : State} {off : BitVec 12} (v : Word)

theorem memWrite_cmd : memWrite 0x000 v s = commandWrite v s := rfl

theorem memWrite_crcDin : memWrite 0x00C v s = .next (s.setCrcDin v) := rfl

theorem memWrite_rxLen_of_free (hb : s.busy = false) :
    memWrite 0x018 v s = .next (s.setRxLen (v.extractLsb' 0 16)) :=
  congrArg Host.Outcome.next (if_neg (Bool.eq_false_iff.mp hb))

theorem memWrite_rxLen_of_busy (hb : s.busy = true) : memWrite 0x018 v s = .next s :=
  congrArg Host.Outcome.next (if_pos hb)

theorem memWrite_txBuf (h : 0x400 ≤ off.toNat) (h' : off.toNat < 0x800) :
    memWrite off v s = .next (s.writeTx (off.toNat - 0x400) (bytes32 v)) := by
  simp only [memWrite, windowSlot_of_tx h h']

theorem memWrite_rxBuf_of_free (h : 0x800 ≤ off.toNat) (h' : off.toNat < 0xC00) (hb : s.busy = false) :
    memWrite off v s = .next (s.writeRx (off.toNat - 0x800) (bytes32 v)) := by
  simp [memWrite, windowSlot_of_rx h h', hb]

theorem memWrite_rxBuf_of_busy (h : 0x800 ≤ off.toNat) (h' : off.toNat < 0xC00) (hb : s.busy = true) :
    memWrite off v s = .next s := by
  simp [memWrite, windowSlot_of_rx h h', hb]

theorem memWrite_unmapped (h : (0x020 ≤ off.toNat ∧ off.toNat ≤ 0x3FC) ∨ 0xC00 ≤ off.toNat) :
    memWrite off v s = .next s := by
  simp only [memWrite, windowSlot_of_unmapped h]

/-- The read-only registers: STATUS, CRC_ACC, TX_LEN, TX_SEQ, CORR_SEQ (R58). -/
theorem memWrite_readOnly (h : off = 0x004 ∨ off = 0x008 ∨ off = 0x010 ∨ off = 0x014 ∨ off = 0x01C) :
    memWrite off v s = .next s := by
  obtain rfl | rfl | rfl | rfl | rfl := h <;> rfl

end Writes

/-! One word written to a buffer: its four bytes change, and it reads back (R52). -/

theorem State.txView_writeTx_word (s : State) (a : Nat) (v : Word) (i : Nat) :
    (s.writeTx a (bytes32 v)).txView i = if a ≤ i ∧ i < a + 4 then (bytes32 v).getD (i - a) 0 else s.txView i := by
  rw [State.txView_writeTx, length_bytes32]

theorem State.rxView_writeRx_word (s : State) (a : Nat) (v : Word) (i : Nat) :
    (s.writeRx a (bytes32 v)).rxView i = if a ≤ i ∧ i < a + 4 then (bytes32 v).getD (i - a) 0 else s.rxView i := by
  rw [State.rxView_writeRx, length_bytes32]

theorem State.le32_txView_writeTx_word (s : State) (a : Nat) (v : Word) :
    le32 (s.writeTx a (bytes32 v)).txView a = v :=
  le32_of_bytes32 fun j hj => by
    rw [State.txView_writeTx_word, if_pos (by omega), Nat.add_sub_cancel_left]

/-- The offset of a window word given by its number does not wrap around. -/
theorem toNat_wordOffset {first k : Nat} (h : first + 4 * k < 0x1000) :
    (BitVec.ofNat 12 (first + 4 * k)).toNat = first + 4 * k :=
  Nat.mod_eq_of_lt h

/-! Reserved bits (R39, R57). -/

/-- A status bit is a field of 1 bit. -/
theorem flagBit_eq_setWidth (b : Bool) : flagBit b = (BitVec.ofBool b).setWidth 32 := by
  cases b <;> rfl

/-- A field of `w` bits at position `p` of STATUS leaves the bits outside it 0. -/
theorem getLsbD_field_outside {w : Nat} (x : BitVec w) {p k : Nat} (h : k < p ∨ p + w ≤ k) :
    (x.setWidth 32 <<< p).getLsbD k = false := by
  rw [BitVec.getLsbD_shiftLeft, BitVec.getLsbD_setWidth]
  obtain h | h := h
  · simp [h]
  · simp [BitVec.getLsbD_of_ge x (k - p) (by omega)]

/-- SLOTS is a field of 2 bits (R32). -/
theorem ofNat_slots (n : Fin 4) : BitVec.ofNat 32 n.val = (BitVec.ofNat 2 n.val).setWidth 32 := by
  decide +revert

/-- Bits 3 and 31:15 of STATUS read 0 (R39). -/
theorem State.getLsbD_status_reserved (s : State) {k : Nat} (h : k = 3 ∨ 15 ≤ k) : s.status.getLsbD k = false := by
  have hbusy : ((BitVec.ofBool s.busy).setWidth 32).getLsbD k = false := by
    simpa using getLsbD_field_outside (BitVec.ofBool s.busy) (p := 0) (k := k) (by omega)
  simp only [State.status, flagBit_eq_setWidth, ofNat_slots, BitVec.getLsbD_or, hbusy]
  iterate 6 rw [getLsbD_field_outside _ (by omega)]
  rfl

theorem State.status_upper (s : State) : s.status.extractLsb' 15 17 = 0 :=
  BitVec.eq_of_getLsbD_eq fun k _ => by
    rw [BitVec.getLsbD_extractLsb', s.getLsbD_status_reserved (by omega)]
    simp

/-- The upper half of a 16-bit register's word reads 0 (R57). -/
theorem setWidth_upper (h : Half) : (h.setWidth 32).extractLsb' 16 16 = 0 :=
  BitVec.eq_of_getLsbD_eq fun k _ => by
    rw [BitVec.getLsbD_extractLsb', BitVec.getLsbD_setWidth, BitVec.getLsbD_of_ge h _ (by omega)]
    simp

/-! The obligations. -/

/-- Settles O34: the step of an aligned read, then the map slot by slot. -/
theorem windowReads : Obligations.WindowReads :=
  ⟨fun _ _ _ ha h => step_ld32 ha h,
   fun s => ⟨memRead_cmd s, memRead_status s, memRead_crcAcc s, memRead_crcDin s, memRead_txLen s, memRead_txSeq s,
     memRead_rxLen s, memRead_corrSeq s, fun off _ =>
      ⟨fun h h' => memRead_txBuf s h (by omega), fun h h' => memRead_rxBuf s h (by omega), memRead_unmapped s,
        memRead_pending_hostReads s off⟩⟩⟩

/-- Settles O35: the step of an aligned write, then the map slot by slot; a buffer's new memory is the one with the
word's four bytes written. -/
theorem windowWrites : Obligations.WindowWrites := by
  refine ⟨fun _ _ _ _ ha h => step_st32 ha h, fun s v => ⟨memWrite_cmd v, memWrite_crcDin v,
    memWrite_rxLen_of_free v, memWrite_rxLen_of_busy v, fun off _ => ⟨?tx, ?rxFree, ?rxBusy, ?ignored⟩⟩⟩
  case tx => exact fun h h' => ⟨_, memWrite_txBuf v h (by omega), s.txView_writeTx_word _ v⟩
  case rxFree => exact fun h h' hb => ⟨_, memWrite_rxBuf_of_free v h (by omega) hb, s.rxView_writeRx_word _ v⟩
  case rxBusy => exact fun h h' => memWrite_rxBuf_of_busy v h (by omega)
  case ignored =>
    rintro (h | h | h | h | h | h)
    iterate 5 exact memWrite_readOnly v (by simp [h])
    exact memWrite_unmapped v h

/-- Settles O37: with BUSY = 1 the receive side's writes are the identity, and a word written to TX_BUF reads back. -/
theorem receiveSideLockedWhileBusy : Obligations.ReceiveSideLockedWhileBusy := by
  intro s v k hb hk
  have hrx : (BitVec.ofNat 12 (0x800 + 4 * k)).toNat = 0x800 + 4 * k := toNat_wordOffset (by omega)
  have htx : (BitVec.ofNat 12 (0x400 + 4 * k)).toNat = 0x400 + 4 * k := toNat_wordOffset (by omega)
  refine ⟨memWrite_rxLen_of_busy v hb, memWrite_rxBuf_of_busy v (by omega) (by omega) hb, memRead_rxLen s, ?_,
    (s.writeTx (4 * k) (bytes32 v)).tx, ?_, s.le32_txView_writeTx_word (4 * k) v⟩
  · rw [memRead_rxBuf s (by omega) (by omega), hrx, Nat.add_sub_cancel_left]
  · rw [memWrite_txBuf v (by omega) (by omega), htx, Nat.add_sub_cancel_left]
    rfl

/-- Settles O36: the unmapped offsets, the read-only registers, the read of CMD and the reserved bits in turn. -/
theorem reservedReadZeroIgnoreWrites : Obligations.ReservedReadZeroIgnoreWrites := by
  intro s v
  refine ⟨fun off h => ⟨memRead_unmapped s h, memWrite_unmapped v h⟩, ?readOnly, ?cmd,
    ⟨s.getLsbD_status_reserved (.inl rfl), s.status_upper⟩, setWidth_upper s.txLen, setWidth_upper s.txSeq,
    setWidth_upper s.rxLen, setWidth_upper s.corrSeq⟩
  case readOnly => refine ⟨?_, ?_, ?_, ?_, ?_⟩ <;> exact memWrite_readOnly v (by decide)
  case cmd => exact fun rest => step_ld32 (off := 0x000) rfl rfl

/-- Settles O39: outside the contract both host accesses answer the refusal that names them. -/
theorem narrowOrMisalignedRefused : Obligations.NarrowOrMisalignedRefused :=
  fun s _ _ v rest hout =>
    ⟨fun h => by rw [step_of_load h, hostLoad_refused (s.setPending rest) hout],
     fun h => by rw [step_of_store h, hostStore_refused v (s.setPending rest) hout]⟩

end Sys2Proof.Machine
end

section
/-!
PROOFS. The command word (spec/30_encoding.md R80 to R82): at most one row of the opcode table selects a word, which
words are legal, and what an accepted illegal word does.
-/
namespace Sys2Proof.Machine

/-! The table's rows exclude each other (R81). -/

/-- A row that selects a word fixes the word's low half: no mask leaves a bit of it out. -/
theorem low_half_of_selects {r : OpcodeRow} {w : Word} (hr : r ∈ opcodeTable) (hs : r.selects w = true) :
    w &&& 0xFFFF = r.pattern := by
  have hmask : ∀ r ∈ opcodeTable, r.mask &&& 0xFFFF = 0xFFFF ∧ r.pattern &&& 0xFFFF = r.pattern := by decide
  obtain ⟨hm, hp⟩ := hmask r hr
  rw [OpcodeRow.selects, beq_iff_eq] at hs
  rw [← hm, ← BitVec.and_assoc, hs, hp]

theorem nodup_opcodeTable_pattern : (opcodeTable.map (·.pattern)).Nodup := by decide

/-- At most one row matches any word (R81). -/
theorem length_filter_selects_le_one (w : Word) : (opcodeTable.filter (·.selects w)).length ≤ 1 := by
  have hall : (opcodeTable.filter (·.selects w)).map (·.pattern) =
      List.replicate (opcodeTable.filter (·.selects w)).length (w &&& 0xFFFF) := by
    refine List.eq_replicate_iff.mpr ⟨List.length_map _, fun b hb => ?_⟩
    obtain ⟨r, hr, rfl⟩ := List.mem_map.mp hb
    obtain ⟨hmem, hsel⟩ := List.mem_filter.mp hr
    exact (low_half_of_selects hmem hsel).symm
  have hnodup : ((opcodeTable.filter (·.selects w)).map (·.pattern)).Nodup :=
    nodup_opcodeTable_pattern.sublist (List.filter_sublist.map _)
  rw [hall] at hnodup
  exact List.nodup_replicate.mp hnodup

theorem eq_of_selects {r r' : OpcodeRow} {w : Word} (hr : r ∈ opcodeTable) (hr' : r' ∈ opcodeTable)
    (hs : r.selects w = true) (hs' : r'.selects w = true) : r = r' :=
  List.inj_on_of_nodup_map nodup_opcodeTable_pattern hr hr'
    ((low_half_of_selects hr hs).symm.trans (low_half_of_selects hr' hs'))

/-! The decoder by its table. -/

/-- A word decodes to what a row that selects it builds, whichever row that is (R81). -/
theorem decodeWord_eq_ok_iff_row {w : Word} {i : Instr} :
    decodeWord w = .ok i ↔ ∃ r ∈ opcodeTable, r.selects w = true ∧ r.build w = i := by
  unfold decodeWord
  cases hf : opcodeTable.find? (·.selects w) with
  | none =>
    simp only [List.find?_eq_none] at hf
    simp only [reduceCtorEq, false_iff]
    rintro ⟨r, hr, hs, -⟩
    exact hf r hr hs
  | some r =>
    have hr := List.mem_of_find?_eq_some hf
    have hs : r.selects w = true := List.find?_some (p := fun r : OpcodeRow => r.selects w) hf
    refine ⟨fun h => ⟨r, hr, hs, Except.ok.inj h⟩, ?_⟩
    rintro ⟨r', hr', hs', rfl⟩
    rw [eq_of_selects hr hr' hs hs']

/-- The mask of a row without an operand keeps every bit. -/
theorem and_full_mask (w : Word) : w &&& 0xFFFFFFFF#32 = w := BitVec.and_allOnes

/-- The table row by row; ENCODE's row takes its length from IMM (R81). -/
theorem decodeWord_eq_ok_iff {w : Word} {i : Instr} :
    decodeWord w = .ok i ↔
      (w = 1 ∧ .crcInit = i) ∨ (w = 2 ∧ .crcFeed = i) ∨
        (w &&& 0xFFFF = 3 ∧ .encode (immField w).toNat = i) ∨ (w = 4 ∧ .decode = i) ∨ (w = 5 ∧ .request = i) := by
  simp [decodeWord_eq_ok_iff_row, opcodeTable, OpcodeRow.selects, and_full_mask]

theorem exists_decodeWord_eq_error_iff {w : Word} :
    (∃ e, decodeWord w = .error e) ↔ ¬∃ i, decodeWord w = .ok i := by
  cases decodeWord w <;> simp

/-! The fields as numbers (R80). -/

theorem toNat_opField (w : Word) : (opField w).toNat = w.toNat % 256 := by
  simp [opField]

theorem toNat_rsvField (w : Word) : (rsvField w).toNat = w.toNat / 256 % 256 := by
  simp [rsvField, Nat.shiftRight_eq_div_pow]

theorem toNat_immField (w : Word) : (immField w).toNat = w.toNat / 65536 := by
  have := w.isLt
  simp only [immField, BitVec.extractLsb'_toNat, Nat.shiftRight_eq_div_pow]
  omega

theorem toNat_low_half (w : Word) : (w &&& 0xFFFF#32).toNat = w.toNat % 65536 :=
  Nat.and_two_pow_sub_one_eq_mod w.toNat 16

/-- The word of an ENCODE as a number: the length in the upper half, the opcode in the lower (R80, R81). -/
theorem toNat_encode_word (len : BitVec 16) : (len.setWidth 32 <<< 16 ||| 3#32).toNat = len.toNat * 65536 + 3 := by
  have := len.isLt
  have hshift : (len.setWidth 32 <<< 16 : Word).toNat = len.toNat <<< 16 := by
    simp only [BitVec.toNat_shiftLeft, BitVec.toNat_setWidth, Nat.shiftLeft_eq]
    omega
  rw [BitVec.toNat_or, hshift, BitVec.toNat_ofNat, ← Nat.shiftLeft_add_eq_or_of_lt (by decide), Nat.shiftLeft_eq]

/-! The legal words, as words and by their fields (R82). -/

theorem exists_decodeWord_eq_ok_iff {w : Word} :
    (∃ i, decodeWord w = .ok i) ↔ w = 1 ∨ w = 2 ∨ w = 4 ∨ w = 5 ∨ w &&& 0xFFFF = 3 := by
  simp only [decodeWord_eq_ok_iff, exists_or, exists_and_left, exists_eq', and_true]
  tauto

/-- The words ENCODE's row selects are the 65536 words of its lengths. -/
theorem low_half_eq_three_iff {w : Word} : w &&& 0xFFFF = 3 ↔ ∃ len : BitVec 16, w = len.setWidth 32 <<< 16 ||| 3 := by
  simp only [← BitVec.toNat_inj, toNat_low_half, toNat_encode_word, BitVec.ofNat_eq_ofNat, BitVec.toNat_ofNat]
  refine ⟨fun h => ⟨immField w, ?_⟩, ?_⟩
  · rw [toNat_immField]
    omega
  · rintro ⟨len, h⟩
    omega

/-- The legal words by their fields: the split is one of numbers, OP, RSV and IMM being the word's digits (R80, R82). -/
theorem exists_decodeWord_eq_ok_iff_fields {w : Word} :
    (∃ i, decodeWord w = .ok i) ↔
      (opField w ≠ 0 ∧ (opField w).toNat < 6) ∧ rsvField w = 0 ∧ (immField w = 0 ∨ opField w = 3) := by
  simp only [exists_decodeWord_eq_ok_iff, ne_eq, ← BitVec.toNat_inj, toNat_low_half, toNat_opField, toNat_rsvField,
    toNat_immField, BitVec.ofNat_eq_ofNat, BitVec.toNat_ofNat]
  have := w.isLt
  omega

/-- All an accepted illegal word does (R82). -/
theorem commandWrite_of_illegal {w : Word} {e : DecodeError} {s : State} (he : decodeWord w = .error e)
    (hb : s.busy = false) : commandWrite w s = .next { s with err := .illegalCmd, rej := false } := by
  rw [commandWrite, he]
  exact gate_of_free _ hb

/-! The obligations. -/

/-- Settles O3: each row of the decoder's table in turn, then that the rows exclude each other. -/
theorem wordsSelectTableRows : Obligations.WordsSelectTableRows := by
  intro w
  refine ⟨?crcInit, ?crcFeed, ?encode, ?length, ?decode, ?request, length_filter_selects_le_one w⟩
  case length =>
    intro len h
    obtain ⟨-, rfl⟩ : w &&& 0xFFFF = 3 ∧ (immField w).toNat = len := by simpa [decodeWord_eq_ok_iff] using h
    rw [toNat_immField, BitVec.toNat_ushiftRight, Nat.shiftRight_eq_div_pow]
  all_goals simp [decodeWord_eq_ok_iff, and_full_mask]

/-- Settles O4: the legal words by their fields and as words, then the report of an accepted illegal one. -/
theorem illegalWordsOnlyReport : Obligations.IllegalWordsOnlyReport := by
  refine fun w => ⟨?kinds, ?words, fun e s => commandWrite_of_illegal, rfl⟩
  case kinds =>
    rw [exists_decodeWord_eq_error_iff, exists_decodeWord_eq_ok_iff_fields]
    simp only [not_and_or, not_or, not_not, not_lt, ne_eq]
  case words =>
    rw [exists_decodeWord_eq_ok_iff, low_half_eq_three_iff]

end Sys2Proof.Machine
end

section
/-!
PROOFS. The wire layout of an encoded frame (spec/30_encoding.md R84).
-/
namespace Sys2Proof.Machine

/-- A field is cut out by the length of what stands before it and its own. -/
theorem take_drop_of_prefix {α : Type} {f before field : List α} {n m : Nat} (h : before ++ field <+: f)
    (hn : before.length = n) (hm : field.length = m) : (f.drop n).take m = field := by
  obtain ⟨rest, rfl⟩ := h
  rw [List.append_assoc, List.drop_left' hn, List.take_left' hm]

/-- The words of a byte sequence's front do not depend on what follows. -/
theorem words_viewOf_append {bs : List Byte} (tail : List Byte) {k : Nat} (h : 4 * k ≤ bs.length) :
    words (viewOf (bs ++ tail)) 0 k = words (viewOf bs) 0 k :=
  words_congr fun j hj => List.getD_append _ _ _ _ (by omega)

/-- The checksum an encoded frame carries is that of its own covered words (R88, R130). -/
theorem encodeFrame_eq (p : List Byte) (seq : Half) :
    encodeFrame p seq = frameBody p seq ++
      bytes32 (checksum (words (viewOf (encodeFrame p seq)) 0 (pad4 p.length / 4 + 2))) := by
  have hfit : 4 * (pad4 p.length / 4 + 2) ≤ (frameBody p seq).length := by
    rw [length_frameBody]
    omega
  rw [encodeFrame, words_viewOf_append _ hfit]
  rfl

/-- The header's first four bytes, whatever the sequence number and the length (R84). -/
theorem preamble_command_bytes :
    bytes16 Config.preamble ++ bytes16 Config.command = [0x4C, 0x48, 0x46, 0x00] := by decide

/-- Settles O14: header, payload and padding are the front of the frame, one after the other, and the trailer is the
rest. -/
theorem encodedFrameLayout : Obligations.EncodedFrameLayout := by
  intro p seq _
  have hf := encodeFrame_eq p seq
  generalize encodeFrame p seq = f at hf ⊢
  have hbody : frameHeader seq p.length ++ p ++ zeros (pad4 p.length - p.length) <+: f := ⟨_, hf.symm⟩
  have hpayload : frameHeader seq p.length ++ p <+: f := (List.prefix_append _ _).trans hbody
  have hheader : frameHeader seq p.length <+: f := (List.prefix_append _ _).trans hpayload
  have hseq : bytes16 Config.preamble ++ bytes16 Config.command ++ bytes16 seq <+: f :=
    (List.prefix_append _ _).trans hheader
  have hstart : [0x4C, 0x48, 0x46, 0x00] <+: f :=
    preamble_command_bytes ▸ (List.prefix_append _ _).trans hseq
  refine ⟨?length, (List.prefix_iff_eq_take.mp hstart).symm, take_drop_of_prefix hseq rfl rfl,
    take_drop_of_prefix hheader rfl rfl, take_drop_of_prefix hpayload (length_frameHeader ..) rfl,
    take_drop_of_prefix hbody (by simp) (length_zeros _), ?trailer⟩
  case length =>
    rw [hf, List.length_append, length_frameBody, length_bytes32]
    omega
  case trailer =>
    rw [← length_frameBody p seq]
    conv_lhs => rw [hf]
    exact List.drop_left

end Sys2Proof.Machine
end

section
/-!
PROOFS. The checksum engine's commands (spec/40_crc.md R113, R114): what each does when it is accepted, rejected or
badly encoded, and the corner cases of one word step.
-/
namespace Sys2Proof.Machine

/-! Rejected and badly encoded commands (R82, R94). -/

/-- Every command written while BUSY = 1 is rejected (R94). -/
theorem exec_of_busy (i : Instr) {s : State} (hb : s.busy = true) : exec i s = .next s.reject := by
  cases i <;> simp only [exec, execCrcInit, execCrcFeed, execEncode, execDecode, execRequest, gate_of_busy _ hb]

/-- Only ENCODE's word may carry a nonzero RSV or IMM field, and there only IMM (R82). -/
theorem exists_decodeWord_eq_error_of_fields {w : Word} (hop : opField w ≠ 3)
    (h : rsvField w ≠ 0 ∨ immField w ≠ 0) : ∃ e, decodeWord w = .error e := by
  rw [exists_decodeWord_eq_error_iff, exists_decodeWord_eq_ok_iff_fields]
  rintro ⟨-, hrsv, himm | hop'⟩
  · exact h.elim (· hrsv) (· himm)
  · exact hop hop'

theorem commandWrite_of_illegal_fields {w : Word} {s : State} (hop : opField w ≠ 3) (h : rsvField w ≠ 0 ∨ immField w ≠ 0)
    (hb : s.busy = false) : commandWrite w s = .next { s with err := .illegalCmd, rej := false } :=
  have ⟨_, he⟩ := exists_decodeWord_eq_error_of_fields hop h
  commandWrite_of_illegal he hb

/-! The effect of the two commands (R113, R114). -/

theorem exec_crcInit_of_free {s : State} (hb : s.busy = false) :
    exec .crcInit s = .next { s with crcAcc := 0xFFFFFFFF, err := .none, rej := false } := by
  rw [exec, execCrcInit]
  exact gate_of_free _ hb

theorem exec_crcFeed_of_free {s : State} (hb : s.busy = false) :
    exec .crcFeed s = .next { s with crcAcc := crcWord s.crcAcc s.crcDin, err := .none, rej := false } := by
  rw [exec, execCrcFeed]
  exact gate_of_free _ hb

/-- The state after CRC_INIT is free or busy as the state before, so the second run takes the same branch (R113). -/
theorem exec_crcInit_idempotent {s t : State} (h : exec .crcInit s = .next t) : exec .crcInit t = .next t := by
  cases hb : s.busy with
  | false =>
    rw [exec_crcInit_of_free hb] at h
    obtain rfl := Host.Outcome.next.inj h
    exact exec_crcInit_of_free hb
  | true =>
    rw [exec_of_busy _ hb] at h
    obtain rfl := Host.Outcome.next.inj h
    exact exec_of_busy _ hb

/-! One word step (R110). -/

theorem crcStep_zero : crcStep 0#32 = 0#32 := by decide

/-- Zero shifts to zero (R114). -/
theorem crcSteps_zero (n : Nat) : crcSteps n 0#32 = 0#32 := by
  induction n with
  | zero => rfl
  | succ n ih => rw [crcSteps, crcStep_zero, ih]

/-- A word equal to the register clears it (R114, R116). -/
theorem crcWord_self (c : Word) : crcWord c c = 0 := by
  rw [crcWord, BitVec.xor_self]
  exact crcSteps_zero _

/-- The example of R114: a zero word fed right after CRC_INIT. -/
theorem crcWord_initValue_zero : crcWord 0xFFFFFFFF 0x00000000 = 0xC704DD7B := by decide +kernel

/-! The obligations. -/

/-- Settles O6: CRC_INIT's row of the decoder, then its free, busy, illegal and repeated runs. -/
theorem crcInitStartsChecksum : Obligations.CrcInitStartsChecksum :=
  ⟨decodeWord_eq_ok_iff.mpr (.inl ⟨rfl, rfl⟩), fun _ =>
    ⟨exec_crcInit_of_free, exec_of_busy .crcInit, fun _ hop => commandWrite_of_illegal_fields (by rw [hop]; decide),
      fun _ => exec_crcInit_idempotent⟩⟩

/-- Settles O7: CRC_FEED's row of the decoder, then its free, busy and illegal runs; two corner cases are a word
equal to the register, and the last is the spec's example. -/
theorem crcFeedProcessesOneWord : Obligations.CrcFeedProcessesOneWord :=
  ⟨decodeWord_eq_ok_iff.mpr (.inr (.inl ⟨rfl, rfl⟩)), fun _ =>
    ⟨exec_crcFeed_of_free, exec_of_busy .crcFeed, fun _ hop => commandWrite_of_illegal_fields (by rw [hop]; decide)⟩,
    crcWord_self, crcWord_self 0, crcWord_initValue_zero⟩

end Sys2Proof.Machine
end

section
/-!
PROOFS. The frame decoder's verdict (spec/41_frame_codec.md R134 to R138): what each check that fails first decides.
-/
namespace Sys2Proof.Machine

/-! One equation per check that can fail first, and one for a frame that passes them all (R134). -/

section Verdict
variable {B : View} {n : Nat}

theorem decodeVerdict_of_outOfBounds (hb : ¬(8 ≤ n ∧ n ≤ 1024)) : decodeVerdict B n = .lengthMismatch :=
  if_pos (show n < 8 ∨ 1024 < n by omega)

theorem decodeVerdict_of_inBounds (hb : 8 ≤ n ∧ n ≤ 1024) :
    decodeVerdict B n =
      if le16 B 0 ≠ 0x484C then .badPreamble
      else if (le16 B 6).toNat + 12 ≠ n then .lengthMismatch
      else if le32 B (8 + (le16 B 6).toNat) ≠ checksum (words B 0 ((le16 B 6).toNat / 4 + 2)) then .checksumMismatch
      else .ok :=
  if_neg (show ¬(n < 8 ∨ 1024 < n) by omega)

theorem decodeVerdict_of_wrong_preamble (hb : 8 ≤ n ∧ n ≤ 1024) (hp : le16 B 0 ≠ 0x484C) :
    decodeVerdict B n = .badPreamble := by
  rw [decodeVerdict_of_inBounds hb, if_pos hp]

theorem decodeVerdict_of_wrong_length (hb : 8 ≤ n ∧ n ≤ 1024) (hp : le16 B 0 = 0x484C)
    (hl : (le16 B 6).toNat + 12 ≠ n) : decodeVerdict B n = .lengthMismatch := by
  rw [decodeVerdict_of_inBounds hb, if_neg (not_not.mpr hp), if_pos hl]

theorem decodeVerdict_of_wrong_trailer (hb : 8 ≤ n ∧ n ≤ 1024) (hp : le16 B 0 = 0x484C)
    (hl : (le16 B 6).toNat + 12 = n)
    (ht : le32 B (8 + (le16 B 6).toNat) ≠ checksum (words B 0 ((le16 B 6).toNat / 4 + 2))) :
    decodeVerdict B n = .checksumMismatch := by
  rw [decodeVerdict_of_inBounds hb, if_neg (not_not.mpr hp), if_neg (not_not.mpr hl), if_pos ht]

theorem decodeVerdict_of_checks_passed (hb : 8 ≤ n ∧ n ≤ 1024) (hp : le16 B 0 = 0x484C)
    (hl : (le16 B 6).toNat + 12 = n)
    (ht : le32 B (8 + (le16 B 6).toNat) = checksum (words B 0 ((le16 B 6).toNat / 4 + 2))) :
    decodeVerdict B n = .ok := by
  rw [decodeVerdict_of_inBounds hb, if_neg (not_not.mpr hp), if_neg (not_not.mpr hl), if_neg (not_not.mpr ht)]

end Verdict

/-- Settles O18: one check after the other, each that fails fixing the verdict, so that in every case the four
characterisations are decided; that no byte beyond the received length is read is `decodeVerdict_congr`. -/
theorem verdictIsFirstFailingCheck : Obligations.VerdictIsFirstFailingCheck := by
  intro B n inBounds preamble length trailer
  rw [← and_assoc, ← and_assoc, ← and_assoc]
  refine ⟨?verdicts, fun _ => decodeVerdict_congr, rfl, rfl, rfl, rfl⟩
  by_cases hb : inBounds
  case neg => simp [decodeVerdict_of_outOfBounds hb, hb]
  by_cases hp : preamble
  case neg => simp [decodeVerdict_of_wrong_preamble hb hp, hb, hp]
  by_cases hl : length
  case neg => simp [decodeVerdict_of_wrong_length hb hp hl, hb, hp, hl]
  by_cases ht : trailer
  case neg => simp [decodeVerdict_of_wrong_trailer hb hp hl ht, hb, hp, hl, ht]
  case pos => simp [decodeVerdict_of_checks_passed hb hp hl ht, hb, hp, hl, ht]

end Sys2Proof.Machine
end

section
/-!
PROOFS. The correlator (spec/42_correlator.md R163 to R168): a REQUEST without a frame, which datagram completes a
waiting request, what an arrival leaves in the receive side, and the datagrams that never match.
-/
namespace Sys2Proof.Machine

/-! A REQUEST while TXV = 0 (R163). -/

theorem exec_request_of_invalid {s : State} (hb : s.busy = false) (hv : s.txv = false) :
    exec .request s = .next { s with err := .notEncoded, rej := false } := by
  rw [exec, execRequest, gate_of_free _ hb]
  exact if_neg (Bool.eq_false_iff.mp hv)

/-! The step that takes a datagram (R164, R167). -/

theorem step_of_datagram {s : State} {d : List Byte} {rest : List Event} (hd : d.length ≤ Config.maxDatagram)
    (h : s.pending = .datagram d :: rest) : step s = .next (deliver d (s.setPending rest)) := by
  rw [step_of_cons h]
  exact if_neg (Nat.not_lt.mpr hd)

theorem step_of_arrival {s : State} {d : List Byte} {rest : List Event} (hb : s.busy = true)
    (hd : d.length ≤ Config.maxDatagram) (h : s.pending = .datagram d :: rest) :
    step s = .next (arrive d (s.setPending rest)) := by
  rw [step_of_datagram hd h, deliver_of_busy d (by rwa [State.busy_setPending])]

/-! The bytes of a stored datagram (R164, R168). -/

theorem State.rxView_capture_of_fits (s : State) {d : List Byte} {i : Nat} (hi : i < d.length) (hf : i < 1024) :
    (s.capture d).rxView i = viewOf d i := by
  rw [State.rxView_capture, if_pos (by omega), viewOf]

/-- A range of a buffer that agrees with a byte sequence up to the range's end is that range of the sequence. -/
theorem slice_eq_take_drop {B : View} {d : List Byte} {a b : Nat} (hb : b ≤ d.length)
    (h : ∀ i, i < b → B i = viewOf d i) : slice B a b = (d.drop a).take (b - a) := by
  refine List.ext_getElem ?_ fun j hj _ => ?_
  · rw [length_slice, List.length_take, List.length_drop]
    omega
  · rw [length_slice] at hj
    rw [List.getElem_take, List.getElem_drop, ← List.getD_eq_getElem d 0]
    simpa [slice, viewOf] using h (a + j) (by omega)

/-! Which datagrams complete a request (R165). -/

/-- The datagram is a valid frame and carries the sequence number `q` (R165). -/
def Answers (d : List Byte) (q : Half) : Prop :=
  decodeVerdict (viewOf d) d.length = .ok ∧ hdrSeq (viewOf d) = q

/-- A valid frame fits the buffer and its length field says how long it is (R134). -/
theorem length_of_verdict_ok {B : View} {n : Nat} (h : decodeVerdict B n = .ok) : n ≤ 1024 ∧ hdrLen B + 12 = n := by
  obtain ⟨-, -, -, hok, -⟩ := verdictIsFirstFailingCheck B n
  obtain ⟨⟨-, hfits⟩, -, hlen, -⟩ := hok.mp h
  exact ⟨hfits, hlen⟩

/-- The correlator judges the datagram as it arrived: a valid frame is stored whole, its header with it (R164, R165). -/
theorem answers_capture_iff (s : State) {d : List Byte} (q : Half) (hd : d.length ≤ Config.maxDatagram) :
    decodeVerdict (s.capture d).rxView (s.capture d).rxLen.toNat = .ok ∧ hdrSeq (s.capture d).rxView = q ↔
      Answers d q := by
  rw [decodeVerdict_capture s hd]
  refine and_congr_right fun hv => ?_
  obtain ⟨hfits, hlen⟩ := length_of_verdict_ok hv
  have hseq : hdrSeq (s.capture d).rxView = hdrSeq (viewOf d) :=
    le16_congr (s.rxView_capture_of_fits (by omega) (by omega)) (s.rxView_capture_of_fits (by omega) (by omega))
  rw [hseq]

theorem arrive_of_answer {s : State} {d : List Byte} (hd : d.length ≤ Config.maxDatagram) (h : Answers d s.corrSeq) :
    arrive d s = { (s.capture d).takeSlot with ldec := .verdict .ok, corr := .matched, err := .none } :=
  if_pos ((answers_capture_iff s _ hd).mpr h)

theorem arrive_of_discard {s : State} {d : List Byte} (hd : d.length ≤ Config.maxDatagram)
    (h : ¬Answers d s.corrSeq) :
    arrive d s =
      ((s.capture d).takeSlot.setLdec (if decodeVerdict (viewOf d) d.length = .ok then .seqMismatch
        else .verdict (decodeVerdict (viewOf d) d.length))).timeoutIfSpent := by
  rw [← decodeVerdict_capture s hd]
  exact if_neg (mt (answers_capture_iff s _ hd).mp h)

theorem State.corr_timeoutIfSpent_ne_matched {s : State} (hw : s.corr = .wait) :
    s.timeoutIfSpent.corr ≠ .matched := by
  rw [State.corr_timeoutIfSpent, hw]
  split <;> decide

theorem corr_arrive_eq_matched_iff {s : State} {d : List Byte} (hd : d.length ≤ Config.maxDatagram)
    (hw : s.corr = .wait) : (arrive d s).corr = .matched ↔ Answers d s.corrSeq := by
  by_cases h : Answers d s.corrSeq
  · simp [arrive_of_answer hd h, h]
  · rw [arrive_of_discard hd h]
    exact iff_of_false (State.corr_timeoutIfSpent_ne_matched hw) h

/-! What every arrival leaves in the receive side, whether it matches or not (R164). -/

theorem rxView_arrive (d : List Byte) (s : State) : (arrive d s).rxView = (s.capture d).rxView := by
  obtain ⟨-, -, h⟩ | ⟨-, h⟩ := arrive_cases d s
  · rw [h]
    rfl
  · rw [h, State.rxView_timeoutIfSpent, State.rxView_setLdec, State.rxView_takeSlot]

theorem rxLen_arrive (d : List Byte) (s : State) : (arrive d s).rxLen = (s.capture d).rxLen := by
  obtain ⟨-, -, h⟩ | ⟨-, h⟩ := arrive_cases d s
  · rw [h]
    rfl
  · rw [h, State.rxLen_timeoutIfSpent, State.rxLen_setLdec, State.rxLen_takeSlot]

theorem slots_arrive {d : List Byte} {s : State} (h : s.slots ≠ 0) : (arrive d s).slots.val + 1 = s.slots.val := by
  obtain ⟨-, -, hslots, -⟩ := arrive_frame d s
  have hpos : s.slots.val ≠ 0 := Fin.val_ne_of_ne h
  simp only [hslots, State.slots_takeSlot]
  omega

/-! The obligations. -/

/-- Settles O24: the arrival matches exactly the answers; an answer is a valid frame, so it stands whole in RX and its
payload is found through the length field stored there. -/
theorem matchIsValidAndCorrelated : Obligations.MatchIsValidAndCorrelated := by
  rintro s d hb ⟨hd, rest, hp⟩
  have hiff := corr_arrive_eq_matched_iff (s := s.setPending rest) hd ((State.busy_eq_true s).mp hb)
  refine ⟨_, step_of_arrival hb hd hp, hiff, fun hmatched => ?_⟩
  have hanswers := hiff.mp hmatched
  have harrive := arrive_of_answer hd hanswers
  obtain ⟨hfits, hlen⟩ := length_of_verdict_ok hanswers.1
  have hview : ∀ i, i < d.length → (arrive d (s.setPending rest)).rxView i = viewOf d i := fun i hi => by
    rw [rxView_arrive, State.rxView_capture_of_fits _ hi (by omega)]
  have hhdrLen : hdrLen (arrive d (s.setPending rest)).rxView = hdrLen (viewOf d) :=
    congrArg BitVec.toNat (le16_congr (hview 6 (by omega)) (hview 7 (by omega)))
  refine ⟨?busy, congrArg State.err harrive, congrArg State.ldec harrive, ?rxLen, ?frame, ?payload,
    slots_arrive (s := s.setPending rest), ?record, ?pending, ?rx⟩
  case busy => simp [State.busy, hmatched]
  case rxLen => rw [rxLen_arrive, State.rxLen_capture_toNat _ hd]
  case frame => simpa using slice_eq_take_drop (a := 0) le_rfl hview
  case payload =>
    rw [hhdrLen, slice_eq_take_drop (by omega) fun i hi => hview i (by omega), Nat.add_sub_cancel_left]
  case record =>
    rw [harrive]
    rfl
  case pending =>
    rw [harrive]
    exact hp
  case rx => exact fun i => by rw [rxView_arrive, State.rxView_capture, State.rxView_setPending]

/-- Settles O27: a length out of the decoder's bounds fixes the verdict, so the datagram is discarded; what is stored
and the slot are every arrival's. -/
theorem oversizeAndRuntDatagrams : Obligations.OversizeAndRuntDatagrams := by
  rintro s d hb hslots ⟨hd, rest, hp⟩ hlength
  have hverdict : decodeVerdict (viewOf d) d.length = .lengthMismatch := decodeVerdict_of_outOfBounds (by omega)
  have hwait : (s.setPending rest).corr = .wait := (State.busy_eq_true s).mp hb
  have hdiscard : ¬Answers d (s.setPending rest).corrSeq := fun ⟨hok, _⟩ => by simp [hverdict] at hok
  refine ⟨_, step_of_arrival hb hd hp, ?ldec, ?rxLen, slots_arrive (s := s.setPending rest) hslots, ?corr, ?rx,
    ?stored⟩
  case ldec =>
    rw [arrive_of_discard hd hdiscard, State.ldec_timeoutIfSpent, hverdict]
    rfl
  case rxLen => rw [rxLen_arrive, State.rxLen_capture_toNat _ hd]
  case corr => exact mt (corr_arrive_eq_matched_iff hd hwait).mp hdiscard
  case rx => exact fun i hi => by rw [rxView_arrive, State.rxView_capture, if_pos hi]
  case stored =>
    intro hlong
    rw [rxView_arrive]
    exact slice_eq_take_drop hlong.le fun i hi => State.rxView_capture_of_fits _ (by omega) hi

/-- Settles O22: the accepted REQUEST takes the branch of TXV = 0. -/
theorem requestWithoutFrameReports : Obligations.RequestWithoutFrameReports :=
  ⟨fun _ => exec_request_of_invalid, rfl⟩

/-- Settles O26: outside WAIT the receive port drops the datagram the step takes. -/
theorem datagramOutsideWaitDropped : Obligations.DatagramOutsideWaitDropped := by
  intro s d rest hb hd hp
  rw [step_of_datagram hd hp, deliver_of_free d (by rwa [State.busy_setPending])]
  rfl

end Sys2Proof.Machine
end

section
/-!
PROOFS. The reports (spec/60_exceptions.md R197): which steps write ERR, LDEC and REJ, and what a reset leaves there.
-/
namespace Sys2Proof.Machine

theorem State.NextRuns.accepts {s : State} {i : Instr} (h : s.NextRuns i) : s.NextAccepts := by
  obtain ⟨hb, w, rest, hp, -⟩ := h
  exact ⟨hb, w, rest, hp⟩

/-! What a command, an arrival and an expiry do to the reports. -/

/-- An accepted command clears REJ, whatever else it does (R94). -/
theorem rej_exec_of_free {i : Instr} {s t : State} (hb : s.busy = false) (h : exec i s = .next t) : t.rej = false := by
  obtain ⟨hb', -⟩ | ⟨-, ⟨-, rfl⟩ | ⟨-, rfl⟩ | ⟨len, -, -, rfl⟩ | ⟨len, -, -, rfl⟩ | ⟨-, rfl⟩ | ⟨-, -, -, rfl⟩ |
    ⟨-, -, rfl⟩⟩ := exec_cases h
  · simp [hb] at hb'
  all_goals rfl

/-- DECODE alone of the commands writes LDEC (R141, R193). -/
theorem eq_decode_of_ldec_exec_ne {i : Instr} {s t : State} (h : exec i s = .next t) (hne : t.ldec ≠ s.ldec) :
    i = .decode := by
  obtain ⟨-, rfl⟩ | ⟨-, ⟨-, rfl⟩ | ⟨-, rfl⟩ | ⟨len, -, -, rfl⟩ | ⟨len, -, -, rfl⟩ | ⟨hi, -⟩ | ⟨-, -, -, rfl⟩ |
    ⟨-, -, rfl⟩⟩ := exec_cases h
  iterate 5 exact absurd rfl hne
  · exact hi
  all_goals exact absurd rfl hne

/-- An arrival writes ERR only where it ends the wait (R165, R170). -/
theorem busy_arrive_of_err_ne {d : List Byte} {s : State} (h : (arrive d s).err ≠ s.err) :
    (arrive d s).busy = false := by
  obtain ⟨-, -, -, ⟨hc, -⟩ | ⟨hc, -⟩ | ⟨-, he, -⟩⟩ := arrive_frame d s
  · simp [State.busy, hc]
  · simp [State.busy, hc]
  · exact absurd he h

/-- An expiry writes ERR only where it ends the wait (R169, R170). -/
theorem busy_expire_of_err_ne {s : State} (h : (expire s).err ≠ s.err) : (expire s).busy = false := by
  obtain ⟨-, -, ⟨hc, -⟩ | ⟨-, he, -⟩⟩ := expire_frame s
  · simp [State.busy, hc]
  · exact absurd he h

theorem rej_arrive (d : List Byte) (s : State) : (arrive d s).rej = s.rej :=
  arrive_keeps State.rej d s fun _ _ _ _ _ _ _ => rfl

theorem rej_expire (s : State) : (expire s).rej = s.rej := expire_keeps State.rej s fun _ _ _ _ => rfl

theorem ldec_expire (s : State) : (expire s).ldec = s.ldec := expire_keeps State.ldec s fun _ _ _ _ => rfl

theorem step_of_reset {s : State} {redraw : Bool} {rest : List Event} (h : s.pending = .reset redraw :: rest) :
    step s = .next (resetEvent redraw (s.setPending rest)) :=
  step_of_cons h

/-! The writers of each report, over every step. -/

section Writers
variable {s t : State}

theorem err_writers (h : step s = .next t) (hne : t.err ≠ s.err) :
    s.NextAccepts ∨ (s.busy = true ∧ t.busy = false) ∨ s.NextResets := by
  cases step_kind h with
  | runs i hr => exact .inl hr.accepts
  | illegal ha => exact .inl ha
  | arrives d hb _ p ht =>
    subst ht
    exact .inr (.inl ⟨hb, busy_arrive_of_err_ne hne⟩)
  | expires hb _ p ht =>
    subst ht
    exact .inr (.inl ⟨hb, busy_expire_of_err_ne hne⟩)
  | resets hr => exact .inr (.inr hr)
  | _ =>
    subst t
    exact absurd rfl hne

theorem ldec_writers (h : step s = .next t) (hne : t.ldec ≠ s.ldec) :
    s.NextRuns .decode ∨ (s.busy = true ∧ ∃ d, s.NextArrives d) ∨ s.NextResets := by
  cases step_kind h with
  | runs i hr p hx =>
    obtain rfl : i = .decode := eq_decode_of_ldec_exec_ne hx hne
    exact .inl hr
  | arrives d hb hd => exact .inr (.inl ⟨hb, d, hd⟩)
  | expires _ _ p ht =>
    subst ht
    exact absurd (ldec_expire (s.setPending p)) hne
  | resets hr => exact .inr (.inr hr)
  | _ =>
    subst t
    exact absurd rfl hne

/-- All that can happen to REJ: set by a rejection, cleared by an accepted command or a reset, else kept (R35, R94). -/
theorem rej_cases (h : step s = .next t) :
    t.rej = s.rej ∨ (t.rej = true ∧ s.busy = true ∧ ∃ w rest, s.pending = st32 0x000 w :: rest) ∨
      (t.rej = false ∧ (s.NextAccepts ∨ s.NextResets)) := by
  cases step_kind h with
  | reject hb hc p ht => exact .inr (.inl ⟨ht ▸ rfl, hb, hc⟩)
  | runs i hr p hx => exact .inr (.inr ⟨rej_exec_of_free (s := s.setPending p) hr.1 hx, .inl hr.accepts⟩)
  | illegal ha p ht => exact .inr (.inr ⟨ht ▸ rfl, .inl ha⟩)
  | resets hr p redraw ht => exact .inr (.inr ⟨ht ▸ rfl, .inr hr⟩)
  | arrives d _ _ p ht => exact .inl (ht ▸ rej_arrive d (s.setPending p))
  | expires _ _ p ht => exact .inl (ht ▸ rej_expire (s.setPending p))
  | _ =>
    subst t
    exact .inl rfl

theorem reports_of_reset (h : step s = .next t) (hr : s.NextResets) :
    t.err = .none ∧ t.ldec = .verdict .ok ∧ t.rej = false := by
  obtain ⟨redraw, rest, hp⟩ := hr
  obtain rfl := Host.Outcome.next.inj ((step_of_reset hp).symm.trans h)
  exact ⟨rfl, rfl, rfl⟩

end Writers

/-- Settles O50: the writers of ERR, of LDEC and of REJ, one report after the other, then the step of a reset. -/
theorem errorReportsLast : Obligations.ErrorReportsLast := by
  intro s t h
  refine ⟨err_writers h, ldec_writers h, ?falls, ?rises, reports_of_reset h⟩
  case falls =>
    intro hset hclear
    obtain hkept | ⟨hrej, -⟩ | ⟨-, hcause⟩ := rej_cases h
    · simp [hset, hclear] at hkept
    · simp [hclear] at hrej
    · exact hcause
  case rises =>
    intro hclear hset
    obtain hkept | ⟨-, hcause⟩ | ⟨hrej, -⟩ := rej_cases h
    · simp [hset, hclear] at hkept
    · exact hcause
    · simp [hset] at hrej

end Sys2Proof.Machine
end

section
/-!
PROOFS. The command word and its instruction (spec/30_encoding.md R80 to R83, R94): decoder and encoder invert each
other, a write to CMD is the step of the instruction its word decodes to, and BUSY = 1 rejects every word.
-/
namespace Sys2Proof.Machine

/-! A word and its fields (R80). -/

/-- The three fields put together are the word: no bit stands outside them. -/
theorem append_fields (w : Word) : immField w ++ rsvField w ++ opField w = w := by
  rw [immField, rsvField, opField, BitVec.extractLsb'_append_extractLsb'_eq_extractLsb' (show 16 = 8 + 8 from rfl),
    BitVec.extractLsb'_append_extractLsb'_eq_extractLsb' (show 8 = 0 + 8 from rfl)]
  exact BitVec.extractLsb'_eq_self

/-- The words of ENCODE's row by their fields. -/
theorem low_half_eq_three_iff_fields {w : Word} : w &&& 0xFFFF = 3 ↔ opField w = 3 ∧ rsvField w = 0 := by
  simp only [← BitVec.toNat_inj, toNat_low_half, toNat_opField, toNat_rsvField, BitVec.ofNat_eq_ofNat,
    BitVec.toNat_ofNat]
  omega

/-- A word with an instruction's fields is the instruction's word. -/
theorem encodeWord_eq_of_fields {i : Instr} {w : Word} (hop : opField w = i.opcode) (hrsv : rsvField w = 0)
    (himm : (immField w).toNat = i.imm) : encodeWord i = w := by
  rw [encodeWord, ← himm, BitVec.ofNat_toNat, BitVec.setWidth_eq, ← hop, ← hrsv, append_fields]

/-! The obligations. -/

/-- Settles O1: a command without an operand has one word; ENCODE's word has the fields of its row, and IMM is the
length. -/
theorem decodeInvertsEncode : Obligations.DecodeInvertsEncode := by
  intro i hwf
  cases i with
  | encode len =>
    obtain ⟨hop, hrsv, himm⟩ := Laws.FormatC.encode len hwf
    rw [decodeWord_eq_ok_iff, low_half_eq_three_iff_fields]
    exact .inr (.inr (.inl ⟨⟨hop, hrsv⟩, congrArg Instr.encode himm⟩))
  | _ => decide

/-- Settles O2: row by row, the selected word has the fields of the instruction the row builds. -/
theorem encodeInvertsDecode : Obligations.EncodeInvertsDecode := by
  intro w i h
  obtain ⟨rfl, rfl⟩ | ⟨rfl, rfl⟩ | ⟨hlow, rfl⟩ | ⟨rfl, rfl⟩ | ⟨rfl, rfl⟩ := decodeWord_eq_ok_iff.mp h
  case inr.inr.inl =>
    obtain ⟨hop, hrsv⟩ := low_half_eq_three_iff_fields.mp hlow
    exact ⟨decide_eq_true (immField w).isLt, encodeWord_eq_of_fields hop hrsv rfl⟩
  all_goals decide

/-- Settles O5: the decoder evaluated on the thirteen words. -/
theorem listedWordsDecode : Obligations.ListedWordsDecode := by
  unfold Obligations.ListedWordsDecode
  decide

/-- Settles O32: the gate of the command, or of the illegal word's report, rejects. -/
theorem busyRejectsEveryCommand : Obligations.BusyRejectsEveryCommand := by
  refine fun s hb => ⟨fun w => ?_, fun i => exec_of_busy i hb⟩
  rw [commandWrite]
  cases decodeWord w with
  | ok i => exact exec_of_busy i hb
  | error e => exact gate_of_busy _ hb

/-- Settles O57: the step is the write to CMD, which follows the decoder. -/
theorem stepRunsDecodedCommand : Obligations.StepRunsDecodedCommand := by
  intro s w rest hp
  have hstep : step s = commandWrite w { s with pending := rest } := step_st32 rfl hp
  exact ⟨fun i hi => by rw [hstep, commandWrite, hi], fun e he => by rw [hstep, commandWrite, he]⟩

/-- Settles O58: the placed event is the write of the same word, and taking it gives the state back. -/
theorem placedWordRunsNext : Obligations.PlacedWordRunsNext := by
  intro s w
  have hword : BitVec.ofNat 32 (w.toNat % 2 ^ 32) = w := by
    rw [Nat.mod_eq_of_lt w.isLt, BitVec.ofNat_toNat, BitVec.setWidth_eq]
  have hp : (s.withFetchWord 32 w.toNat).pending = st32 0x000 w :: s.pending := by
    rw [State.withFetchWord, hword, State.pending_setPending]
  exact step_st32 rfl hp

end Sys2Proof.Machine
end

section
/-!
PROOFS. The algebra of the checksum (spec/40_crc.md R115, R116, R119): one shift/XOR step is linear and loses nothing,
so a word step is too, and the engine's commands fold it over a stream.
-/
namespace Sys2Proof.Machine

/-! Linearity and injectivity, from one step to one word (R110). -/

theorem crcStep_xor (a b : Word) : crcStep (a ^^^ b) = crcStep a ^^^ crcStep b := by
  simp only [crcStep, BitVec.msb_xor, BitVec.shiftLeft_xor_distrib]
  cases a.msb <;> cases b.msb <;> simp only [Bool.xor_false, Bool.xor_true, Bool.not_false, Bool.not_true, if_true,
    Bool.false_eq_true, if_false]
  case false.true => exact BitVec.xor_assoc ..
  case true.false => ac_rfl
  case true.true =>
    rw [BitVec.xor_assoc, BitVec.xor_comm (b <<< 1), ← BitVec.xor_assoc Config.poly, BitVec.xor_self, BitVec.zero_xor]

theorem crcSteps_xor (n : Nat) (a b : Word) : crcSteps n (a ^^^ b) = crcSteps n a ^^^ crcSteps n b := by
  induction n generalizing a b with
  | zero => rfl
  | succ n ih => simp only [crcSteps, crcStep_xor, ih]

/-- A step that takes POLY in leaves bit 0 set, and one that does not drops a bit that is 0: only 0 steps to 0. -/
theorem eq_zero_of_crcStep_eq_zero {c : Word} (h : crcStep c = 0) : c = 0 := by
  rw [crcStep] at h
  split at h
  · have hbit : ((c <<< 1) ^^^ Config.poly).getLsbD 0 = true := by simp [Config.poly]
    simp [h] at hbit
  next hmsb =>
    have hlt : c.toNat < 2 ^ 31 := by simpa [BitVec.msb_eq_decide] using hmsb
    have hshift : c.toNat <<< 1 % 2 ^ 32 = 0 := congrArg BitVec.toNat h
    rw [Nat.shiftLeft_eq] at hshift
    exact BitVec.eq_of_toNat_eq (show c.toNat = 0 by omega)

theorem eq_zero_of_crcSteps_eq_zero {n : Nat} {c : Word} (h : crcSteps n c = 0) : c = 0 := by
  induction n generalizing c with
  | zero => exact h
  | succ n ih => exact eq_zero_of_crcStep_eq_zero (ih h)

/-- Law 5 of R116. -/
theorem crcWord_xor (c1 c2 w1 w2 : Word) : crcWord (c1 ^^^ c2) (w1 ^^^ w2) = crcWord c1 w1 ^^^ crcWord c2 w2 := by
  rw [crcWord, crcWord, crcWord, ← crcSteps_xor]
  congr 1
  ac_rfl

/-- A word step tells apart whatever differs in register XOR word (R119). -/
theorem crcWord_eq_iff {c c' w w' : Word} : crcWord c w = crcWord c' w' ↔ c ^^^ w = c' ^^^ w' := by
  refine ⟨fun h => ?_, fun h => congrArg (crcSteps _) h⟩
  rw [← BitVec.xor_eq_zero_iff] at h ⊢
  rw [crcWord, crcWord, ← crcSteps_xor] at h
  exact eq_zero_of_crcSteps_eq_zero h

theorem twoPow_ne_zero {w b : Nat} (hb : b < w) : BitVec.twoPow w b ≠ 0 := by
  intro h
  have hbit := congrArg (·.getLsbD b) h
  simp [hb] at hbit

/-! The checksum of a stream (R111). -/

theorem foldl_crcWord_injective (ws : List Word) : Function.Injective fun c => ws.foldl crcWord c := by
  induction ws with
  | nil => exact Function.injective_id
  | cons w ws ih => exact ih.comp fun c c' h => (BitVec.xor_left_inj w).mp (crcWord_eq_iff.mp h)

theorem checksum_append (xs ys : List Word) : checksum (xs ++ ys) = ys.foldl crcWord (checksum xs) :=
  List.foldl_append

/-- A stream followed by its own checksum leaves 0, the residue of R116. -/
theorem checksum_append_self (xs : List Word) : checksum (xs ++ [checksum xs]) = 0 := by
  rw [checksum_append]
  exact crcWord_self _

/-- Streams that differ in one word have different checksums (R119). -/
theorem checksum_set_ne {ws : List Word} {j : Nat} {w : Word} (hj : j < ws.length) (hw : w ≠ ws[j]) :
    checksum (ws.set j w) ≠ checksum ws := by
  intro h
  have hsplit : checksum ws = (ws.drop (j + 1)).foldl crcWord (crcWord (checksum (ws.take j)) ws[j]) := by
    conv_lhs => rw [← List.take_append_drop j ws, List.drop_eq_getElem_cons hj]
    exact checksum_append ..
  rw [List.set_eq_take_append_cons_drop, if_pos hj, checksum_append, hsplit] at h
  exact hw ((BitVec.xor_right_inj _).mp (crcWord_eq_iff.mp (foldl_crcWord_injective _ h)))

/-! Feeding a stream through the window (R93, R115). -/

theorem feedWord_of_free (v : Word) {s : State} (hb : s.busy = false) :
    feedWord v s = .next { s with crcAcc := crcWord s.crcAcc v, crcDin := v, err := .none, rej := false } :=
  exec_crcFeed_of_free (s := s.setCrcDin v) hb

theorem feedWords_cons {v : Word} (vs : List Word) {s t : State} (h : feedWord v s = .next t) :
    feedWords (v :: vs) s = feedWords vs t := by
  rw [feedWords, h]

/-- A stream folds into CRC_ACC; its last word stays in CRC_DIN; ERR and REJ are cleared unless it is empty. -/
theorem feedWords_of_free (ws : List Word) {s : State} (hb : s.busy = false) :
    feedWords ws s = .next { s with
      crcAcc := ws.foldl crcWord s.crcAcc
      crcDin := ws.getLastD s.crcDin
      err := if ws.isEmpty then s.err else .none
      rej := if ws.isEmpty then s.rej else false } := by
  induction ws generalizing s with
  | nil => rfl
  | cons v vs ih =>
    refine (feedWords_cons vs (feedWord_of_free v hb)).trans ((ih (by exact hb)).trans ?_)
    simp only [List.getLastD_cons, List.foldl_cons, List.isEmpty_cons, ite_self, Bool.false_eq_true, if_false]

/-! The obligations. -/

/-- Settles O8: CRC_INIT's equation, then the fold over the stream from the value it leaves. -/
theorem feedsAccumulateChecksum : Obligations.FeedsAccumulateChecksum := by
  refine fun s ws hb => ⟨⟨_, exec_crcInit_of_free hb, ?init⟩, fun hacc => ⟨_, feedWords_of_free ws hb, ?feeds⟩⟩
  case init =>
    rw [feedWords_of_free ws (by exact hb)]
    simp only [ite_self]
    rfl
  case feeds => exact congrArg (ws.foldl crcWord) hacc

/-- Settles O9: a fold over the stream splits; a word equal to the register clears it, the all-ones word the initial
one. -/
theorem checksumLaws : Obligations.ChecksumLaws :=
  ⟨rfl, checksum_append, ⟨crcWord_self, checksum_append_self⟩, checksum_append_self [], crcWord_xor⟩

/-- Settles O10: a word with one bit flipped is another word. -/
theorem bitFlipChangesChecksum : Obligations.BitFlipChangesChecksum := by
  intro ws j b hj hb
  refine checksum_set_ne hj fun h => ?_
  rw [List.getD_eq_getElem _ _ hj] at h
  exact twoPow_ne_zero hb (by simpa using h)

end Sys2Proof.Machine
end

section
/-!
PROOFS. The codec's commands (spec/41_frame_codec.md R131 to R133, R141; spec/40_crc.md R120): what ENCODE and DECODE do
when they are accepted, the bytes ENCODE leaves in TX, and that neither touches CRC_ACC.
-/
namespace Sys2Proof.Machine

/-! The accepted commands. -/

/-- All an accepted ENCODE that fits writes, said of the state before it (R131). -/
theorem encodeInto_accept_countDraw (len : Nat) (seq : Half) (s : State) :
    encodeInto len seq s.accept.countDraw = { s with
      tx := (frameInto len seq s).tx, txLen := BitVec.ofNat 16 (12 + pad4 len), txSeq := seq, txv := true, err := .none,
      rej := false, draws := s.draws + 1 } := by
  rw [encodeInto, tx_frameInto_congr len seq (s' := s) rfl rfl]
  rfl

section Commands
variable {s : State} {len : Nat}

theorem exec_encode_of_tooLong (hb : s.busy = false) (hl : 1012 < len) :
    exec (.encode len) s = .next { s with txv := false, err := .encodeTooLong, rej := false } := by
  rw [exec, execEncode, gate_of_free _ hb]
  exact if_pos hl

theorem exec_encode_of_fits (hb : s.busy = false) (hl : len ≤ 1012) :
    exec (.encode len) s = .next { s with
      tx := (frameInto len (Config.seqDraw s.draws) s).tx, txLen := BitVec.ofNat 16 (12 + pad4 len),
      txSeq := Config.seqDraw s.draws, txv := true, err := .none, rej := false, draws := s.draws + 1 } := by
  rw [exec, execEncode, gate_of_free _ hb, ← encodeInto_accept_countDraw]
  exact if_neg (Nat.not_lt.mpr hl)

theorem exec_decode_of_free (hb : s.busy = false) :
    exec .decode s = .next { s with
      ldec := .verdict (decodeVerdict s.rxView s.rxLen.toNat)
      err := (decodeVerdict s.rxView s.rxLen.toNat).err
      rej := false } := by
  rw [exec, execDecode]
  exact gate_of_free _ hb

end Commands

/-! The bytes of an encoded frame, by their place in it (R130). -/

section FrameBytes
variable (p : List Byte) (seq : Half) {i : Nat}

theorem getD_frameBody_header (hi : i < 8) : (frameBody p seq).getD i 0 = (frameHeader seq p.length).getD i 0 := by
  rw [frameBody, List.append_assoc, List.getD_append _ _ _ _ (by simpa using hi)]

theorem getD_frameBody_payload (hi : 8 ≤ i) (hi' : i < 8 + p.length) :
    (frameBody p seq).getD i 0 = p.getD (i - 8) 0 := by
  rw [frameBody, List.getD_append _ _ _ _ (by simpa using hi'), List.getD_append_right _ _ _ _ (by simpa using hi),
    length_frameHeader]

theorem getD_frameBody_padding (hi : 8 + p.length ≤ i) :
    (frameBody p seq).getD i 0 = (zeros (pad4 p.length - p.length)).getD (i - (8 + p.length)) 0 := by
  rw [frameBody, List.getD_append_right _ _ _ _ (by simpa using hi), List.length_append, length_frameHeader]

theorem getD_encodeFrame_body (hi : i < 8 + pad4 p.length) :
    (encodeFrame p seq).getD i 0 = (frameBody p seq).getD i 0 := by
  rw [encodeFrame, List.getD_append _ _ _ _ (by simpa using hi)]

theorem getD_encodeFrame_trailer (hi : 8 + pad4 p.length ≤ i) :
    (encodeFrame p seq).getD i 0 =
      (bytes32 (checksum (words (viewOf (frameBody p seq)) 0 (coveredWords (pad4 p.length))))).getD
        (i - (8 + pad4 p.length)) 0 := by
  rw [encodeFrame, List.getD_append_right _ _ _ _ (by simpa using hi), length_frameBody]

end FrameBytes

/-! What ENCODE leaves in TX (R131). -/

/-- Header and padding written around a staged payload are the frame's body. -/
theorem txView_stagedBody (len : Nat) (seq : Half) (s : State) {i : Nat} (hi : i < 8 + pad4 len) :
    ((s.writeTx 0 (frameHeader seq len)).writeTx (8 + len) (zeros (pad4 len - len))).txView i =
      (frameBody (slice s.txView 8 (8 + len)) seq).getD i 0 := by
  have hlen : (slice s.txView 8 (8 + len)).length = len := by simp
  have hpad := le_pad4 len
  simp only [State.txView_writeTx, length_frameHeader, length_zeros]
  by_cases hheader : i < 8
  · rw [getD_frameBody_header _ _ hheader, hlen, if_neg (by omega), if_pos (by omega), Nat.sub_zero]
  by_cases hpayload : i < 8 + len
  · rw [getD_frameBody_payload _ _ (by omega) (by omega), getD_slice _ _ _ _ (by omega), if_neg (by omega),
      if_neg (by omega), Nat.add_sub_cancel' (by omega)]
  · rw [getD_frameBody_padding _ _ (by omega), hlen, if_pos (by omega)]

theorem bufferEpoch_frameInto (len : Nat) (seq : Half) (s : State) :
    (frameInto len seq s).bufferEpoch = s.bufferEpoch := by
  simp only [frameInto, State.bufferEpoch_writeTx]

/-- With the bytes ENCODE writes, TX holds in `TX[0..12+P)` the frame of the staged payload and every other byte as it
was. -/
theorem txView_of_tx_frameInto {len : Nat} {seq : Half} {s t : State} (htx : t.tx = (frameInto len seq s).tx)
    (hepoch : t.bufferEpoch = s.bufferEpoch) (i : Nat) :
    t.txView i =
      if i < 12 + pad4 len then (encodeFrame (slice s.txView 8 (8 + len)) seq).getD i 0 else s.txView i := by
  have hlen : (slice s.txView 8 (8 + len)).length = len := by simp
  have hpad := le_pad4 len
  have hwords : words ((s.writeTx 0 (frameHeader seq len)).writeTx (8 + len) (zeros (pad4 len - len))).txView 0
      (coveredWords (pad4 len)) =
        words (viewOf (frameBody (slice s.txView 8 (8 + len)) seq)) 0 (coveredWords (pad4 len)) :=
    words_congr fun j hj => txView_stagedBody len seq s (by
      simp only [coveredWords, Config.hdrWords] at hj
      have := pad4_mod len
      omega)
  have hview : t.txView = (frameInto len seq s).txView := by
    unfold State.txView
    rw [htx, hepoch, bufferEpoch_frameInto]
  rw [hview, frameInto, Config.hdrBytes, hwords, State.txView_writeTx, length_bytes32]
  by_cases hbody : i < 8 + pad4 len
  · rw [if_neg (by omega), txView_stagedBody len seq s hbody, if_pos (by omega),
      getD_encodeFrame_body _ _ (by rwa [hlen])]
  by_cases htrailer : i < 12 + pad4 len
  · rw [if_pos (by omega), if_pos htrailer, getD_encodeFrame_trailer _ _ (by rw [hlen]; omega), hlen]
  · rw [if_neg (by omega), if_neg htrailer]
    simp only [State.txView_writeTx, length_frameHeader, length_zeros]
    rw [if_neg (by omega), if_neg (by omega)]

/-! The obligations. -/

/-- Settles O12: the accepted ENCODE's equation, and the bytes of the memory it writes. -/
theorem encodeBuildsFrameInPlace : Obligations.EncodeBuildsFrameInPlace :=
  fun _ _ hb hl => ⟨_, exec_encode_of_fits hb hl, txView_of_tx_frameInto rfl rfl⟩

/-- Settles O13: the accepted ENCODE takes the branch of the length bound. -/
theorem overlongEncodeClearsTxv : Obligations.OverlongEncodeClearsTxv :=
  ⟨fun _ _ => exec_encode_of_tooLong, rfl, fun _ => pad4_le_of_le⟩

/-- Settles O17: the accepted DECODE's equation; a verdict's two codes agree, verdict by verdict. -/
theorem decodeReportsVerdict : Obligations.DecodeReportsVerdict :=
  fun _ => ⟨exec_decode_of_free, fun v => by cases v <;> rfl⟩

/-- Settles O11: rejected, too long or accepted, the command's equation reads and writes no CRC_ACC; the bytes ENCODE
writes come from TX alone. -/
theorem frameCommandsIgnoreCrcAcc : Obligations.FrameCommandsIgnoreCrcAcc := by
  intro s c
  cases hb : s.busy with
  | true =>
    have hb' : (s.setCrcAcc c).busy = true := hb
    refine ⟨fun len => ?_, ?_⟩ <;> rw [exec_of_busy _ hb, exec_of_busy _ hb'] <;> rfl
  | false =>
    have hb' : (s.setCrcAcc c).busy = false := hb
    refine ⟨fun len => ?encode, ?decode⟩
    case decode =>
      rw [exec_decode_of_free hb, exec_decode_of_free hb']
      rfl
    case encode =>
      by_cases hl : len ≤ 1012
      · rw [exec_encode_of_fits hb hl, exec_encode_of_fits hb' hl,
          tx_frameInto_congr len _ (s := s.setCrcAcc c) (s' := s) rfl rfl]
        rfl
      · rw [exec_encode_of_tooLong hb (by omega), exec_encode_of_tooLong hb' (by omega)]
        rfl

end Sys2Proof.Machine
end

section
/-!
PROOFS. Encoded and damaged frames at the decoder (spec/41_frame_codec.md R142 to R145; spec/20_memory.md R53): the
header fields read back from an encoded frame, the words a checksum tells apart, and the verdicts that follow.
-/
namespace Sys2Proof.Machine

/-! Fields read back from a byte sequence (R52, R85). -/

section Fields
variable {f g : List Byte} {i n : Nat}

theorem getD_of_take_drop (h : (f.drop i).take n = g) {j : Nat} (hj : j < n) : f.getD (i + j) 0 = g.getD j 0 := by
  subst h
  simp [hj]

theorem le16_of_take_drop {v : Half} (h : (f.drop i).take 2 = bytes16 v) : le16 (viewOf f) i = v :=
  le16_of_bytes16 (getD_of_take_drop h (j := 0) (by decide)) (getD_of_take_drop h (j := 1) (by decide))

theorem le32_of_take_drop {v : Word} (h : (f.drop i).take 4 = bytes32 v) : le32 (viewOf f) i = v :=
  le32_of_bytes32 fun _ hj => getD_of_take_drop h hj

end Fields

/-- Preamble and command are the frame's first four bytes, whatever the payload's length (R84). -/
theorem exists_encodeFrame_eq (p : List Byte) (seq : Half) :
    ∃ tail, encodeFrame p seq = [0x4C, 0x48, 0x46, 0x00] ++ tail := ⟨_, rfl⟩

theorem le16_encodeFrame_preamble (p : List Byte) (seq : Half) : le16 (viewOf (encodeFrame p seq)) 0 = 0x484C := by
  obtain ⟨tail, htail⟩ := exists_encodeFrame_eq p seq
  exact htail ▸ le16_of_bytes16 rfl rfl

section EncodedFields
variable {p : List Byte} (seq : Half) (hp : p.length < 65536)
include hp

theorem length_encodeFrame : (encodeFrame p seq).length = 12 + pad4 p.length := (encodedFrameLayout p seq hp).1

theorem hdrSeq_encodeFrame : hdrSeq (viewOf (encodeFrame p seq)) = seq := by
  obtain ⟨-, -, hseq, -⟩ := encodedFrameLayout p seq hp
  exact le16_of_take_drop hseq

theorem hdrLen_encodeFrame : hdrLen (viewOf (encodeFrame p seq)) = p.length := by
  obtain ⟨-, -, -, hlen, -⟩ := encodedFrameLayout p seq hp
  rw [hdrLen, le16_of_take_drop hlen, BitVec.toNat_ofNat, Nat.mod_eq_of_lt hp]

theorem slice_encodeFrame_payload : slice (viewOf (encodeFrame p seq)) 8 (8 + p.length) = p := by
  obtain ⟨hlength, -, -, -, hpayload, -⟩ := encodedFrameLayout p seq hp
  have hpad := le_pad4 p.length
  rw [slice_eq_take_drop (by omega) fun _ _ => rfl, Nat.add_sub_cancel_left, hpayload]

theorem le32_encodeFrame_trailer :
    le32 (viewOf (encodeFrame p seq)) (8 + pad4 p.length) =
      checksum (words (viewOf (encodeFrame p seq)) 0 (pad4 p.length / 4 + 2)) := by
  obtain ⟨-, -, -, -, -, -, htrailer⟩ := encodedFrameLayout p seq hp
  refine le32_of_take_drop ?_
  rw [htrailer]
  rfl

end EncodedFields

/-- The decoder takes the payload length for the padded one, so the two must agree (R143). -/
theorem decodeVerdict_encodeFrame {p : List Byte} (seq : Half) (hp : p.length ≤ 1012) :
    decodeVerdict (viewOf (encodeFrame p seq)) (encodeFrame p seq).length =
      if p.length % 4 = 0 then .ok else .lengthMismatch := by
  have hlt : p.length < 65536 := by omega
  have hbounds : 12 + pad4 p.length ≤ 1024 := pad4_le_of_le hp
  have hlen : (le16 (viewOf (encodeFrame p seq)) 6).toNat = p.length := hdrLen_encodeFrame seq hlt
  have hpre := le16_encodeFrame_preamble p seq
  rw [length_encodeFrame seq hlt]
  by_cases h4 : p.length % 4 = 0
  · rw [if_pos h4]
    have hpad := pad4_of_mod_eq_zero h4
    refine decodeVerdict_of_checks_passed (by omega) hpre (by omega) ?_
    have htrailer := le32_encodeFrame_trailer seq hlt
    rwa [hpad, ← hlen] at htrailer
  · rw [if_neg h4]
    have hmod := pad4_mod p.length
    exact decodeVerdict_of_wrong_length (by omega) hpre (by omega)

/-! What the words of a buffer tell apart (R88). -/

theorem le32_eq_append_le16 (B : View) (i : Nat) : le32 B i = le16 B (i + 2) ++ le16 B i := by
  rw [le32, le16, le16, BitVec.append_assoc, BitVec.cast_eq]

/-- A word is its two halves, the one at the lower index less significant (R53). -/
theorem le32_eq_or_le16 (B : View) (i : Nat) :
    le32 B i = (le16 B i).setWidth 32 ||| ((le16 B (i + 2)).setWidth 32 <<< 16) := by
  rw [le32_eq_append_le16, BitVec.append_def, BitVec.shiftLeftZeroExtend_eq, BitVec.setWidth'_eq, BitVec.or_comm]

theorem append_inj {m n : Nat} {x x' : BitVec m} {y y' : BitVec n} (h : x ++ y = x' ++ y') : x = x' ∧ y = y' := by
  obtain rfl : y = y' := by simpa only [BitVec.setWidth_append_eq_right] using congrArg (BitVec.setWidth n) h
  exact ⟨(BitVec.append_left_inj y).mp h, rfl⟩

/-- A word has its four bytes as they are. -/
theorem byte_eq_of_le32_eq {B B' : View} {i : Nat} (h : le32 B i = le32 B' i) {j : Nat} (hj : j < 4) :
    B (i + j) = B' (i + j) := by
  obtain ⟨h012, h0⟩ := append_inj h
  obtain ⟨h01, h1⟩ := append_inj h012
  obtain ⟨h3, h2⟩ := append_inj h01
  match j, hj with
  | 0, _ => exact h0
  | 1, _ => exact h1
  | 2, _ => exact h2
  | 3, _ => exact h3

theorem getElem_words (B : View) (a : Nat) {k j : Nat} (hj : j < (words B a k).length) :
    (words B a k)[j] = le32 B (a + 4 * j) := by
  simp [words]

/-- Two buffers that differ in one covered byte only have different checksums (R119). -/
theorem checksum_words_ne {B B' : View} {k m : Nat} (hk : k < 4 * m) (hne : B' k ≠ B k)
    (hrest : ∀ i, i ≠ k → B' i = B i) : checksum (words B' 0 m) ≠ checksum (words B 0 m) := by
  have hj : k / 4 < (words B 0 m).length := by rw [length_words]; omega
  have hset : words B' 0 m = (words B 0 m).set (k / 4) (le32 B' (4 * (k / 4))) := by
    refine List.ext_getElem (by simp) fun j h1 h2 => ?_
    rw [getElem_words, List.getElem_set, getElem_words]
    split
    · subst j; simp
    · exact le32_congr fun l hl => hrest _ (by omega)
  rw [hset]
  refine checksum_set_ne hj fun h => hne ?_
  rw [getElem_words, Nat.zero_add] at h
  have hbyte := byte_eq_of_le32_eq h (j := k % 4) (by omega)
  rwa [Nat.div_add_mod] at hbyte

/-! The obligations. -/

/-- Settles O16: the length check decides, the others pass. -/
theorem onlyAlignedFramesDecode : Obligations.OnlyAlignedFramesDecode :=
  fun _ seq hp => decodeVerdict_encodeFrame seq hp

/-- Settles O15: the verdict of an aligned length, and each field where the layout puts it. -/
theorem encodedFrameRoundTrips : Obligations.EncodedFrameRoundTrips := by
  intro p seq h4 hp
  have hlt : p.length < 65536 := by omega
  exact ⟨(decodeVerdict_encodeFrame seq hp).trans (if_pos h4), hdrSeq_encodeFrame seq hlt, hdrLen_encodeFrame seq hlt,
    slice_encodeFrame_payload seq hlt⟩

/-- Settles O19: preamble, length, trailer and covered words stand outside the range in which the buffers differ. -/
theorem uncoveredBytesDoNotMatter : Obligations.UncoveredBytesDoNotMatter := by
  intro B B' n hn heq
  have hlen : (le16 B 6).toNat + 12 = n := hn
  have hagree : ∀ i, i < 8 + 4 * ((le16 B 6).toNat / 4) ∨ (8 + (le16 B 6).toNat ≤ i ∧ i < n) → B i = B' i :=
    fun i hi => heq i (by omega) (by unfold hdrLen; omega)
  have hpre : le16 B 0 = le16 B' 0 := le16_congr (hagree _ (by omega)) (hagree _ (by omega))
  have hl : le16 B 6 = le16 B' 6 := le16_congr (hagree _ (by omega)) (hagree _ (by omega))
  have htrailer : le32 B (8 + (le16 B 6).toNat) = le32 B' (8 + (le16 B 6).toNat) :=
    le32_congr fun j hj => hagree _ (by omega)
  have hwords : words B 0 ((le16 B 6).toNat / 4 + 2) = words B' 0 ((le16 B 6).toNat / 4 + 2) :=
    words_congr fun j hj => hagree _ (by omega)
  by_cases hb : 8 ≤ n ∧ n ≤ 1024
  · rw [decodeVerdict_of_inBounds hb, decodeVerdict_of_inBounds hb, hpre, htrailer, hwords, hl]
  · rw [decodeVerdict_of_outOfBounds hb, decodeVerdict_of_outOfBounds hb]

/-- Settles O20: a valid frame passes every check; the damage reaches the preamble check, one covered word or the
trailer, and what the checks before read is as it was. -/
theorem damagedFrameRejected : Obligations.DamagedFrameRejected := by
  intro B B' n hok
  obtain ⟨-, -, -, hchecks, -⟩ := verdictIsFirstFailingCheck B n
  obtain ⟨hb, hpre, hlen, htrailer⟩ := hchecks.mp hok
  refine ⟨fun hne => decodeVerdict_of_wrong_preamble hb (hpre ▸ hne), ?bit, ?trailer⟩
  case bit =>
    rintro ⟨k, b, hbit, ⟨hk2, hkc, hk6, hk7⟩, hflip, hrest⟩
    rw [hdrLen] at hkc
    have hpre' : le16 B' 0 = le16 B 0 := le16_congr (hrest _ (by omega)) (hrest _ (by omega))
    have hl : le16 B' 6 = le16 B 6 := le16_congr (hrest _ (by omega)) (hrest _ (by omega))
    have htrailer' : le32 B' (8 + (le16 B 6).toNat) = le32 B (8 + (le16 B 6).toNat) :=
      le32_congr fun j hj => hrest _ (by omega)
    have hne : B' k ≠ B k := fun h => twoPow_ne_zero hbit (by simpa [h] using hflip.symm)
    refine decodeVerdict_of_wrong_trailer hb (hpre'.trans hpre) (by rwa [hl]) ?_
    rw [hl, htrailer', htrailer]
    exact (checksum_words_ne (by omega) hne hrest).symm
  case trailer =>
    intro hrest hne
    rw [hdrLen] at hrest hne
    have hpre' : le16 B' 0 = le16 B 0 := le16_congr (hrest _ (by omega)) (hrest _ (by omega))
    have hl : le16 B' 6 = le16 B 6 := le16_congr (hrest _ (by omega)) (hrest _ (by omega))
    have hwords : words B' 0 ((le16 B 6).toNat / 4 + 2) = words B 0 ((le16 B 6).toNat / 4 + 2) :=
      words_congr fun j hj => hrest _ (by omega)
    refine decodeVerdict_of_wrong_trailer hb (hpre'.trans hpre) (by rwa [hl]) ?_
    rwa [hl, hwords, ← htrailer]

/-- Settles O41: a word is its two halves, the window reads the buffer's words, and every frame starts with the same
four bytes. -/
theorem headerIsTwoWords : Obligations.HeaderIsTwoWords := by
  refine ⟨fun B => ⟨le32_eq_or_le16 B 0, le32_eq_or_le16 B 4, rfl⟩,
    fun s => ⟨memRead_txBuf s (by decide) (by decide), memRead_txBuf s (by decide) (by decide),
      memRead_rxBuf s (by decide) (by decide), memRead_rxBuf s (by decide) (by decide)⟩, fun p seq => ?_⟩
  obtain ⟨tail, htail⟩ := exists_encodeFrame_eq p seq
  rw [htail]
  exact le32_of_take_drop (show [0x4C, 0x48, 0x46, 0x00] = bytes32 0x0046484C by decide)

end Sys2Proof.Machine
end

section
/-!
PROOFS. The register window and STATUS (spec/20_memory.md R50 to R53, R61; spec/10_state.md R39): bus addresses, a
stored buffer word and the words beside it, the fields of STATUS.
-/
namespace Sys2Proof.Machine

/-! Bus addresses (R50). -/

theorem windowOffset_busAddress (off : BitVec 12) : windowOffset (busAddress off) = some off := by
  have := off.isLt
  rw [windowOffset, busAddress, if_pos (by rw [Config.windowBytes]; omega), Nat.add_sub_cancel_left, BitVec.ofNat_toNat,
    BitVec.setWidth_eq]

theorem windowOffset_eq_none_iff (addr : Nat) :
    windowOffset addr = none ↔ addr < Config.base ∨ Config.base + 0x1000 ≤ addr := by
  rw [windowOffset, Config.windowBytes, ite_eq_right_iff]
  simp only [reduceCtorEq, imp_false]
  omega

theorem busAddress_of_windowOffset {addr : Nat} {off : BitVec 12} (h : windowOffset addr = some off) :
    addr = busAddress off := by
  rw [windowOffset, Config.windowBytes] at h
  split at h
  · obtain rfl := Option.some.inj h
    rw [busAddress, BitVec.toNat_ofNat, Nat.mod_eq_of_lt (by omega)]
    omega
  · cases h

/-! A stored word and the rest of the window (R52, R61). -/

section StoredWord
variable (s : State) (v : Word) {a : Nat} {off : BitVec 12}

/-- A word stored in TX leaves every other word of the window as it was. -/
theorem memRead_writeTx_word_of_ne (ha : a % 4 = 0) (h4 : off.toNat % 4 = 0) (hne : off.toNat ≠ 0x400 + a) :
    memRead (s.writeTx a (bytes32 v)) off = memRead s off := by
  cases hslot : windowSlot off with
  | txBuf i =>
    obtain ⟨hoff, -⟩ := (windowSlot_inv off).1 i hslot
    simp only [memRead, hslot]
    exact le32_congr fun j hj => by rw [State.txView_writeTx_word, if_neg (by omega)]
  | _ =>
    simp only [memRead, hslot] <;> rfl

/-- A word stored in RX leaves every other word of the window as it was. -/
theorem memRead_writeRx_word_of_ne (ha : a % 4 = 0) (h4 : off.toNat % 4 = 0) (hne : off.toNat ≠ 0x800 + a) :
    memRead (s.writeRx a (bytes32 v)) off = memRead s off := by
  cases hslot : windowSlot off with
  | rxBuf i =>
    obtain ⟨hoff, -⟩ := (windowSlot_inv off).2.1 i hslot
    simp only [memRead, hslot]
    exact le32_congr fun j hj => by rw [State.rxView_writeRx_word, if_neg (by omega)]
  | _ =>
    simp only [memRead, hslot] <;> rfl

end StoredWord

theorem State.le32_rxView_writeRx_word (s : State) (a : Nat) (v : Word) :
    le32 (s.writeRx a (bytes32 v)).rxView a = v :=
  le32_of_bytes32 fun j hj => by
    rw [State.rxView_writeRx_word, if_pos (by omega), Nat.add_sub_cancel_left]

/-! The fields of STATUS (R39). -/

/-- A field at position `p` of STATUS reads back there. -/
theorem extractLsb'_field_same {w : Nat} (x : BitVec w) {p : Nat} (h : p + w ≤ 32) :
    (x.setWidth 32 <<< p).extractLsb' p w = x := by
  ext k hk
  rw [BitVec.getElem_extractLsb', BitVec.getLsbD_shiftLeft, BitVec.getLsbD_setWidth, Nat.add_sub_cancel_left,
    BitVec.getLsbD_eq_getElem hk]
  simp only [show p + k < 32 by omega, show ¬p + k < p by omega, show k < 32 by omega, decide_true, decide_false,
    Bool.not_false, Bool.true_and]

/-- A field at position `p` of STATUS leaves the bits of another field 0. -/
theorem extractLsb'_field_other {w : Nat} (x : BitVec w) {p q n : Nat} (h : q + n ≤ p ∨ p + w ≤ q) :
    (x.setWidth 32 <<< p).extractLsb' q n = 0 := by
  ext k hk
  rw [BitVec.getElem_extractLsb', getLsbD_field_outside x (by omega)]
  simp

/-- STATUS is seven fields side by side. -/
theorem State.status_eq_fields (s : State) :
    s.status =
      (BitVec.ofBool s.busy).setWidth 32 <<< 0 ||| (BitVec.ofBool s.txv).setWidth 32 <<< 1 |||
        (BitVec.ofBool s.rej).setWidth 32 <<< 2 ||| s.err.code.setWidth 32 <<< 4 ||| s.corr.code.setWidth 32 <<< 8 |||
        (BitVec.ofNat 2 s.slots.val).setWidth 32 <<< 10 ||| s.ldec.code.setWidth 32 <<< 12 := by
  simp only [State.status, flagBit_eq_setWidth, ofNat_slots, BitVec.shiftLeft_zero]

theorem getLsbD_eq_of_extractLsb' {x : Word} {p : Nat} {b : Bool} (h : x.extractLsb' p 1 = BitVec.ofBool b) :
    x.getLsbD p = b := by
  have h0 := congrArg (·.getLsbD 0) h
  simpa using h0

/-- Each field of STATUS stands alone at its bits. -/
theorem State.extractLsb'_status (s : State) :
    s.status.extractLsb' 0 1 = BitVec.ofBool s.busy ∧ s.status.extractLsb' 1 1 = BitVec.ofBool s.txv ∧
      s.status.extractLsb' 2 1 = BitVec.ofBool s.rej ∧ s.status.extractLsb' 4 4 = s.err.code ∧
      s.status.extractLsb' 8 2 = s.corr.code ∧ s.status.extractLsb' 10 2 = BitVec.ofNat 2 s.slots.val ∧
      s.status.extractLsb' 12 3 = s.ldec.code := by
  rw [s.status_eq_fields]
  refine ⟨?_, ?_, ?_, ?_, ?_, ?_, ?_⟩ <;>
    simp (disch := omega) only [BitVec.extractLsb'_or, extractLsb'_field_same, extractLsb'_field_other,
      BitVec.ofNat_eq_ofNat, BitVec.zero_or, BitVec.or_zero]

theorem State.getLsbD_status_busy (s : State) : s.status.getLsbD 0 = s.busy := by
  obtain ⟨hbusy, -⟩ := s.extractLsb'_status
  exact getLsbD_eq_of_extractLsb' hbusy

/-! The obligations. -/

/-- Settles O42: an offset comes back from its address, and only addresses inside the window select one. -/
theorem busAddressSelectsOffset : Obligations.BusAddressSelectsOffset :=
  ⟨windowOffset_busAddress, fun addr => ⟨windowOffset_eq_none_iff addr, fun _ => busAddress_of_windowOffset⟩⟩

/-- Settles O38: in either buffer the written word reads back and every other word is beside it. -/
theorem storedBufferWordReadsBack : Obligations.StoredBufferWordReadsBack := by
  rintro s off v h4 (⟨hlo, hhi⟩ | ⟨hlo, hhi, hb⟩)
  · refine ⟨_, memWrite_txBuf v hlo hhi, ?_, fun off' h4' hne => ?_⟩
    · rw [memRead_txBuf _ hlo hhi, State.le32_txView_writeTx_word]
    · have := mt BitVec.eq_of_toNat_eq hne
      exact memRead_writeTx_word_of_ne s v (by omega) h4' (by omega)
  · refine ⟨_, memWrite_rxBuf_of_free v hlo hhi hb, ?_, fun off' h4' hne => ?_⟩
    · rw [memRead_rxBuf _ hlo hhi, State.le32_rxView_writeRx_word]
    · have := mt BitVec.eq_of_toNat_eq hne
      exact memRead_writeRx_word_of_ne s v (by omega) h4' (by omega)

/-- Settles O40: the codes by their tables, then the fields, the reserved bits and the accesses of STATUS. -/
theorem statusLayout : Obligations.StatusLayout := by
  refine ⟨⟨State.busy_eq_true, by decide, by decide, by decide⟩, fun s v => ?_, by decide⟩
  obtain ⟨hbusy, htxv, hrej, herr, hcorr, hslots, hldec⟩ := s.extractLsb'_status
  exact ⟨getLsbD_eq_of_extractLsb' hbusy, getLsbD_eq_of_extractLsb' htxv, getLsbD_eq_of_extractLsb' hrej,
    s.getLsbD_status_reserved (.inl rfl), herr, hcorr, hslots, hldec, s.status_upper, memRead_status s,
    memWrite_readOnly v (.inl rfl), fun rest => step_ld32 (off := 0x004) rfl rfl⟩

end Sys2Proof.Machine
end

section
/-!
PROOFS. The life of a request (spec/42_correlator.md R161 to R174; spec/30_encoding.md R93; spec/60_exceptions.md
R196): how it starts, what discards and expiries take from it, and that it ends.
-/
namespace Sys2Proof.Machine

/-! REQUEST with a valid frame (R161, R162; log 8). -/

theorem exec_request_of_fits {s : State} (hb : s.busy = false) (hv : s.txv = true) (hl : s.txLen.toNat ≤ 1024) :
    exec .request s = .next { s with
      sent := s.sent ++ [slice s.txView 0 s.txLen.toNat], corrSeq := s.txSeq, slots := 3, corr := .wait,
      txv := false, err := .none, rej := false } := by
  rw [exec, execRequest, gate_of_free _ hb]
  exact (if_pos hv).trans (if_neg (Nat.not_lt.mpr hl))

theorem exec_request_of_tooLong {s : State} (hb : s.busy = false) (hv : s.txv = true) (hl : 1024 < s.txLen.toNat) :
    exec .request s = .fault .txLenBeyondBuffer := by
  rw [exec, execRequest, gate_of_free _ hb]
  exact (if_pos hv).trans (if_pos hl)

/-! One slot expiry (R169, R170). -/

theorem step_of_slotExpiry {s : State} {rest : List Event} (h : s.pending = .slotExpiry :: rest) :
    step s = .next (timerEvent (s.setPending rest)) :=
  step_of_cons h

theorem expire_of_last {s : State} (h : s.slots.val = 1) :
    expire s = { s with slots := 0, corr := .timeout, err := .timeout } := by
  have hzero : s.takeSlot.slots = 0 := Fin.ext (by simp [h])
  rw [expire, State.timeoutIfSpent_of_spent hzero, ← hzero]
  rfl

theorem expire_of_more {s : State} {k : Fin 4} (hk : k ≠ 0) (h : s.slots.val = k.val + 1) :
    expire s = { s with slots := k } := by
  have hslots : s.takeSlot.slots = k := Fin.ext (by simp [h])
  rw [expire, State.timeoutIfSpent_of_left (hslots ▸ hk), ← hslots]
  rfl

/-! How long a request can still wait: each datagram or expiry takes at least one from it (R171). -/

/-- The most datagrams and expiries the request can still take. In WAIT with no slot left, which no run reaches, the
next one ends it all the same. -/
def State.waitLeft (s : State) : Nat := if s.busy then max 1 s.slots.val else 0

theorem State.waitLeft_le (s : State) : s.waitLeft ≤ 3 := by
  have := s.slots.isLt
  unfold State.waitLeft
  split <;> omega

theorem State.waitLeft_eq_zero_iff (s : State) : s.waitLeft = 0 ↔ s.busy = false := by
  unfold State.waitLeft
  cases s.busy <;> simp

theorem State.waitLeft_of_free {s : State} (h : s.busy = false) : s.waitLeft = 0 := s.waitLeft_eq_zero_iff.mpr h

/-- A state that is out of WAIT, or has taken a slot and has one left, has less to wait. -/
theorem State.waitLeft_le_pred {s t : State} (hb : s.busy = true) (hslots : t.slots = s.takeSlot.slots)
    (ht : t.busy = false ∨ t.slots ≠ 0) : t.waitLeft ≤ s.waitLeft - 1 := by
  obtain hfree | hleft := ht
  · rw [State.waitLeft_of_free hfree]
    exact Nat.zero_le _
  · have hval : t.slots.val = s.slots.val - 1 := congrArg Fin.val hslots
    have hpos : t.slots.val ≠ 0 := Fin.val_ne_of_ne hleft
    unfold State.waitLeft
    rw [if_pos hb]
    split <;> omega

theorem State.waitLeft_arrive (d : List Byte) {s : State} (hb : s.busy = true) :
    (arrive d s).waitLeft ≤ s.waitLeft - 1 := by
  obtain ⟨-, -, hslots, hend⟩ := arrive_frame d s
  refine State.waitLeft_le_pred hb hslots ?_
  obtain ⟨hc, -⟩ | ⟨hc, -⟩ | ⟨-, -, hleft⟩ := hend
  · exact .inl (by simp [State.busy, hc])
  · exact .inl (by simp [State.busy, hc])
  · exact .inr hleft

theorem State.waitLeft_timerEvent (s : State) : (timerEvent s).waitLeft ≤ s.waitLeft - 1 := by
  cases hb : s.busy with
  | false => rw [timerEvent_of_free hb, State.waitLeft_of_free hb]
  | true =>
    rw [timerEvent_of_busy hb]
    obtain ⟨-, hslots, hend⟩ := expire_frame s
    refine State.waitLeft_le_pred hb hslots ?_
    obtain ⟨hc, -⟩ | ⟨-, -, hleft⟩ := hend
    · exact .inl (by simp [State.busy, hc])
    · exact .inr hleft

theorem State.waitLeft_deliver (d : List Byte) (s : State) : (deliver d s).waitLeft ≤ s.waitLeft - 1 := by
  cases hb : s.busy with
  | false => rw [deliver_of_free d hb, State.waitLeft_of_free hb]
  | true =>
    rw [deliver_of_busy d hb]
    exact State.waitLeft_arrive d hb

theorem pending_arrive (d : List Byte) (s : State) : (arrive d s).pending = s.pending :=
  arrive_keeps State.pending d s fun _ _ _ _ _ _ _ => rfl

theorem pending_deliver (d : List Byte) (s : State) : (deliver d s).pending = s.pending := by
  cases hb : s.busy with
  | false => rw [deliver_of_free d hb]
  | true => rw [deliver_of_busy d hb, pending_arrive]

theorem pending_timerEvent (s : State) : (timerEvent s).pending = s.pending := by
  cases hb : s.busy with
  | false => rw [timerEvent_of_free hb]
  | true => rw [timerEvent_of_busy hb, expire_keeps State.pending s fun _ _ _ _ => rfl]

/-! One step of another agent than the host (R20). -/

/-- The step takes the event of an agent other than the host, and the request has less to wait. -/
theorem exists_step_of_agent {s : State} {e : Event} {rest : List Event} (hp : s.pending = e :: rest)
    (he : e.isHost = false) (hd : ∀ d, e = .datagram d → d.length ≤ 65535) :
    ∃ t, step s = .next t ∧ t.pending = rest ∧ t.waitLeft ≤ s.waitLeft - 1 := by
  cases e with
  | host op => cases he
  | datagram d =>
    exact ⟨_, step_of_datagram (hd d rfl) hp, pending_deliver d _, State.waitLeft_deliver d (s.setPending rest)⟩
  | slotExpiry => exact ⟨_, step_of_slotExpiry hp, pending_timerEvent _, State.waitLeft_timerEvent (s.setPending rest)⟩
  | reset redraw => exact ⟨_, step_of_reset hp, rfl, Nat.zero_le _⟩

theorem Event.isHost_of_isPolling {e : Event} (h : e.isPolling = true) : e.isHost = false := by
  cases e with
  | host op => cases h
  | _ => rfl

theorem Event.length_of_isPolling {e : Event} (h : e.isPolling = true) {d : List Byte} (hd : e = .datagram d) :
    d.length ≤ 65535 := by
  subst hd
  exact of_decide_eq_true h

theorem runSteps_succ {s t : State} (n : Nat) (h : step s = .next t) : runSteps (n + 1) s = runSteps n t := by
  rw [runSteps, h]

/-- As many steps as there are datagrams and expiries next use up exactly these (R171). -/
theorem exists_runSteps_of_polling {es : List Event} (hes : es.all Event.isPolling = true) {s : State}
    {rest : List Event} (hp : s.pending = es ++ rest) :
    ∃ t, runSteps es.length s = .next t ∧ t.pending = rest ∧ t.waitLeft ≤ s.waitLeft - es.length := by
  induction es generalizing s with
  | nil => exact ⟨s, rfl, hp, le_rfl⟩
  | cons e es ih =>
    rw [List.all_cons, Bool.and_eq_true] at hes
    obtain ⟨he, hes⟩ := hes
    obtain ⟨u, hu, hpu, hwu⟩ :=
      exists_step_of_agent hp (Event.isHost_of_isPolling he) fun _ => Event.length_of_isPolling he
    obtain ⟨t, ht, hpt, hwt⟩ := ih hes hpu
    refine ⟨t, (runSteps_succ _ hu).trans ht, hpt, ?_⟩
    rw [List.length_cons]
    omega

/-- With nothing pending each step is the timer's (R174; log 3). -/
theorem exists_runSteps_of_nil (n : Nat) {s : State} (hp : s.pending = []) :
    ∃ t, runSteps n s = .next t ∧ t.pending = [] ∧ t.waitLeft ≤ s.waitLeft - n := by
  induction n generalizing s with
  | zero => exact ⟨s, rfl, hp, le_rfl⟩
  | succ n ih =>
    obtain ⟨t, ht, hpt, hwt⟩ := ih ((pending_timerEvent s).trans hp)
    have hw := s.waitLeft_timerEvent
    exact ⟨t, (runSteps_succ n (step_of_nil hp)).trans ht, hpt, by omega⟩

/-! One poll of `wait.idle` (R93; log 18). -/

theorem step_of_waitIdle {s : State} {rest : List Event} (hp : s.pending = waitIdleOp :: rest) :
    step s = .next (pollStatus (s.setPending rest)) :=
  step_of_cons hp

theorem pollStatus_of_free {s : State} (hb : s.busy = false) : pollStatus s = s.logRead s.status := by
  rw [pollStatus, State.getLsbD_status_busy, hb]
  rfl

theorem pollStatus_of_busy {s : State} (hb : s.busy = true) :
    pollStatus s = (s.logRead s.status).setPending (pollAgain s.pending) := by
  rw [pollStatus, State.getLsbD_status_busy, hb]
  rfl

/-- The next poll stands behind one event of another agent: the first of those behind this poll, or else an expiry. -/
theorem pollAgain_eq (rest : List Event) :
    ∃ e k, pollAgain rest = e :: waitIdleOp :: rest.drop k ∧ e.isHost = false ∧ k ≤ 1 ∧
      (rest.take k).all (fun e => !e.isHost) = true ∧ ∀ d, e = .datagram d → e ∈ rest := by
  cases rest with
  | nil => exact ⟨.slotExpiry, 0, rfl, rfl, by decide, rfl, nofun⟩
  | cons e rest =>
    cases he : e.isHost with
    | true => exact ⟨.slotExpiry, 0, if_pos he, rfl, by decide, rfl, nofun⟩
    | false =>
      exact ⟨e, 1, if_neg (Bool.eq_false_iff.mp he), he, le_rfl, by simp [he], fun _ _ => List.mem_cons_self⟩

/-- A poll with BUSY = 0 ends `wait.idle`, and nothing else happens. -/
theorem step_of_waitIdle_of_free {s : State} {rest : List Event} (hp : s.pending = waitIdleOp :: rest)
    (hb : s.busy = false) :
    ∃ t, step s = .next t ∧ t.busy = false ∧ t.pending = rest ∧ (t.hostReads.getLastD 1).getLsbD 0 = false := by
  have hfree : (s.setPending rest).busy = false := hb
  refine ⟨_, step_of_waitIdle hp, ?_⟩
  rw [pollStatus_of_free hfree]
  refine ⟨hfree, rfl, ?_⟩
  rw [State.hostReads_logRead, List.getLastD_concat, State.getLsbD_status_busy, hfree]

/-- A poll with BUSY = 1 and the event behind it leave `wait.idle` next again, with less to wait. -/
theorem exists_round_of_busy {s : State} {rest : List Event} (hp : s.pending = waitIdleOp :: rest)
    (hd : ∀ d, Event.datagram d ∈ rest → d.length ≤ 65535) (hb : s.busy = true) :
    ∃ k u, k ≤ 1 ∧ (rest.take k).all (fun e => !e.isHost) = true ∧ u.pending = waitIdleOp :: rest.drop k ∧
      u.waitLeft ≤ s.waitLeft - 1 ∧ ∀ n, runSteps (n + 2) s = runSteps n u := by
  have hbusy : (s.setPending rest).busy = true := hb
  have hpoll := step_of_waitIdle hp
  rw [pollStatus_of_busy hbusy] at hpoll
  obtain ⟨e, k, hagain, he, hk, hagents, hmem⟩ := pollAgain_eq rest
  obtain ⟨u, hu, hpu, hwu⟩ := exists_step_of_agent
    (s := ((s.setPending rest).logRead (s.setPending rest).status).setPending (pollAgain rest)) hagain he
    fun d h => hd d (h ▸ hmem d h)
  exact ⟨k, u, hk, hagents, hpu, hwu, fun n => (runSteps_succ _ hpoll).trans (runSteps_succ n hu)⟩

/-- `wait.idle` ends after at most as many rounds as the request can still wait. -/
theorem exists_runSteps_of_waitIdle (m : Nat) {s : State} {rest : List Event} (hp : s.pending = waitIdleOp :: rest)
    (hd : ∀ d, Event.datagram d ∈ rest → d.length ≤ 65535) (hm : s.waitLeft ≤ m) :
    ∃ n k t, n ≤ 2 * m + 1 ∧ k ≤ m ∧ runSteps n s = .next t ∧ t.busy = false ∧ t.pending = rest.drop k ∧
      (rest.take k).all (fun e => !e.isHost) = true ∧ (t.hostReads.getLastD 1).getLsbD 0 = false := by
  induction m generalizing s rest with
  | zero =>
    have hb : s.busy = false := s.waitLeft_eq_zero_iff.mp (Nat.le_zero.mp hm)
    obtain ⟨t, ht, hfree, hpt, hread⟩ := step_of_waitIdle_of_free hp hb
    exact ⟨1, 0, t, le_rfl, le_rfl, runSteps_succ 0 ht, hfree, hpt, rfl, hread⟩
  | succ m ih =>
    cases hb : s.busy with
    | false =>
      obtain ⟨n, k, t, hn, hk, hrest⟩ := ih hp hd (by rw [State.waitLeft_of_free hb]; exact Nat.zero_le m)
      exact ⟨n, k, t, by omega, by omega, hrest⟩
    | true =>
      obtain ⟨j, u, hj, hagents, hpu, hwu, hround⟩ := exists_round_of_busy hp hd hb
      obtain ⟨n, k, t, hn, hk, hrun, hfree, hpt, hagents', hread⟩ :=
        ih hpu (fun d h => hd d (List.mem_of_mem_drop h)) (by omega)
      refine ⟨n + 2, j + k, t, by omega, by omega, (hround n).trans hrun, hfree, by rw [hpt, List.drop_drop], ?_, hread⟩
      rw [List.take_add, List.all_append, hagents, hagents', Bool.and_true]

/-! The step that takes an answer (R165). -/

theorem exists_step_of_answer {s : State} {d : List Byte} {rest : List Event} (hb : s.busy = true)
    (hd : d.length ≤ Config.maxDatagram) (hp : s.pending = .datagram d :: rest) (h : Answers d s.corrSeq) :
    ∃ t, step s = .next t ∧ t.pending = rest ∧ t.corr = .matched ∧ t.err = .none := by
  have harrive := arrive_of_answer (s := s.setPending rest) hd h
  exact ⟨_, step_of_arrival hb hd hp, pending_arrive d _, congrArg State.corr harrive, congrArg State.err harrive⟩

/-! The obligations. -/

/-- Settles O21: the accepted REQUEST takes the branch of TXV = 1 and a frame inside TX. -/
theorem requestSendsFrameAndWaits : Obligations.RequestSendsFrameAndWaits := fun _ => exec_request_of_fits

/-- Settles O23: the accepted REQUEST takes the branch of TXV = 1 and a frame beyond TX. -/
theorem requestBeyondBufferFaults : Obligations.RequestBeyondBufferFaults := fun _ => exec_request_of_tooLong

/-- Settles O28: in WAIT the timer's event is the expiry of the last slot or of an earlier one. -/
theorem slotExpiryTakesSlot : Obligations.SlotExpiryTakesSlot := by
  refine ⟨fun s rest hb _ hp => ?_, rfl⟩
  rw [step_of_slotExpiry hp, timerEvent_of_busy (s := s.setPending rest) hb]
  exact ⟨fun h => congrArg _ (expire_of_last h), fun k hk h => congrArg _ (expire_of_more hk h)⟩

/-- Settles O25: a discard is the captured datagram with a slot taken and LDEC written, and the last slot's timeout. -/
theorem discardedDatagramUsesSlot : Obligations.DiscardedDatagramUsesSlot := by
  rintro s d hb hslots ⟨hd, rest, hp⟩ hdiscard
  have hwait : (s.setPending rest).corr = .wait := (State.busy_eq_true s).mp hb
  have harrive := arrive_of_discard (s := s.setPending rest) hd hdiscard
  refine ⟨_, step_of_arrival hb hd hp, ?record, ?pending, ?rx, slots_arrive (s := s.setPending rest) hslots, ?ldec,
    ?left, ?spent⟩
  case record =>
    refine (arrive_frame d (s.setPending rest)).1.trans ?_
    rw [rxLen_arrive, pending_arrive]
    rfl
  case pending => rw [pending_arrive]; exact hp
  case rx => exact fun i => by rw [rxView_arrive, State.rxView_capture, State.rxView_setPending]
  case ldec => rw [harrive, State.ldec_timeoutIfSpent]; rfl
  case left =>
    intro hleft
    rw [harrive, State.slots_timeoutIfSpent] at hleft
    rw [harrive, State.timeoutIfSpent_of_left hleft]
    exact ⟨hwait, rfl⟩
  case spent =>
    intro hspent
    rw [harrive, State.slots_timeoutIfSpent] at hspent
    rw [harrive, State.timeoutIfSpent_of_spent hspent]
    exact ⟨rfl, rfl⟩

/-- Settles O29: the three events leave nothing to wait. -/
theorem threePollingEventsEndWait : Obligations.ThreePollingEventsEndWait := by
  intro s es rest hlen hes hp
  obtain ⟨t, ht, hpt, hw⟩ := exists_runSteps_of_polling hes hp
  have := s.waitLeft_le
  exact ⟨t, hlen ▸ ht, t.waitLeft_eq_zero_iff.mp (by omega), hpt⟩

/-- Settles O30: three expiries leave nothing to wait. -/
theorem fairTimerEndsWait : Obligations.FairTimerEndsWait := by
  intro s hp
  obtain ⟨t, ht, hpt, hw⟩ := exists_runSteps_of_nil 3 hp
  have := s.waitLeft_le
  exact ⟨3, t, le_rfl, ht, t.waitLeft_eq_zero_iff.mp (by omega), hpt⟩

/-- Settles O31: at most three rounds go before the poll that ends it. -/
theorem waitIdleEnds : Obligations.WaitIdleEnds :=
  fun s _ hp hd => exists_runSteps_of_waitIdle 3 hp hd s.waitLeft_le

/-- Settles O33: the datagram first is an answer, and the expiry finds the wait over; the expiry first takes the last
slot, and the datagram is dropped. -/
theorem tieBreakDecidesOutcome : Obligations.TieBreakDecidesOutcome := by
  intro s d hb hslots hok hseq
  obtain ⟨hfits, -⟩ := length_of_verdict_ok hok
  have hd : d.length ≤ Config.maxDatagram := by rw [Config.maxDatagram]; omega
  refine ⟨?arrival, ?expiry⟩
  case arrival =>
    obtain ⟨u, hu, hpu, hcorr, herr⟩ := exists_step_of_answer
      (s := { s with pending := [.datagram d, .slotExpiry] }) hb hd rfl ⟨hok, hseq⟩
    have hfree : (u.setPending []).busy = false := (State.busy_eq_false u).mpr (by simp [hcorr])
    refine ⟨_, (runSteps_succ 1 hu).trans (runSteps_succ 0 (step_of_slotExpiry hpu)), ?_⟩
    rw [timerEvent_of_free hfree]
    exact ⟨hcorr, herr⟩
  case expiry =>
    have hfirst := step_of_slotExpiry (s := { s with pending := [.slotExpiry, .datagram d] }) rfl
    rw [timerEvent_of_busy (by exact hb), expire_of_last (by exact congrArg Fin.val hslots)] at hfirst
    refine (runSteps_succ 1 hfirst).trans ((runSteps_succ 0 (step_of_datagram hd rfl)).trans ?_)
    rw [deliver_of_free d rfl]
    rfl

end Sys2Proof.Machine
end

section
/-!
PROOFS. Who writes what, over every step of every agent (spec/10_state.md R22 to R40; spec/42_correlator.md R160;
spec/20_memory.md R59): each state element is kept, or the step is one of its writers.
-/
namespace Sys2Proof.Machine

/-! What a command can write. -/

section Commands
variable {i : Instr} {s t : State}

/-- No command writes CRC_DIN or the receive side. -/
theorem exec_frame (h : exec i s = .next t) :
    t.crcDin = s.crcDin ∧ t.rxView = s.rxView := by
  obtain ⟨-, rfl⟩ | ⟨-, ⟨-, rfl⟩ | ⟨-, rfl⟩ | ⟨_, -, -, rfl⟩ | ⟨_, -, -, rfl⟩ | ⟨-, rfl⟩ | ⟨-, -, -, rfl⟩ |
    ⟨-, -, rfl⟩⟩ := exec_cases h
  case inr.inr.inr.inr.inl =>
    rw [encodeInto_accept_countDraw]
    exact ⟨rfl, rfl⟩
  all_goals exact ⟨rfl, rfl⟩

theorem crcAcc_exec (h : exec i s = .next t) : t.crcAcc = s.crcAcc ∨ i = .crcInit ∨ i = .crcFeed := by
  obtain ⟨-, rfl⟩ | ⟨-, ⟨hi, -⟩ | ⟨hi, -⟩ | ⟨_, -, -, rfl⟩ | ⟨_, -, -, rfl⟩ | ⟨-, rfl⟩ | ⟨-, -, -, rfl⟩ |
    ⟨-, -, rfl⟩⟩ := exec_cases h
  case inr.inl => exact .inr (.inl hi)
  case inr.inr.inl => exact .inr (.inr hi)
  case inr.inr.inr.inr.inl =>
    rw [encodeInto_accept_countDraw]
    exact .inl rfl
  all_goals exact .inl rfl

/-- A byte of TX that an accepted ENCODE changes is in the frame and outside its staged payload (R131). -/
theorem lt_of_tx_frameInto_of_ne {len j : Nat} {seq : Half} (htx : t.tx = (frameInto len seq s).tx)
    (hepoch : t.bufferEpoch = s.bufferEpoch) (hne : t.txView j ≠ s.txView j) :
    j < 12 + pad4 len ∧ ¬(8 ≤ j ∧ j < 8 + len) := by
  have hpad := le_pad4 len
  rw [txView_of_tx_frameInto htx hepoch] at hne
  split at hne
  case isFalse => exact absurd rfl hne
  case isTrue hj =>
    refine ⟨hj, fun ⟨hlo, hhi⟩ => hne ?_⟩
    have hlen : (slice s.txView 8 (8 + len)).length = len := by simp
    rw [getD_encodeFrame_body _ _ (by rw [hlen]; omega), getD_frameBody_payload _ _ hlo (by omega),
      getD_slice _ _ _ _ (by omega), Nat.add_sub_cancel' hlo]

/-- An accepted ENCODE that fits alone writes TX, TX_LEN and TX_SEQ (R26, R27, R131). -/
theorem transmit_exec (h : exec i s = .next t) :
    (t.txView = s.txView ∧ t.txLen = s.txLen ∧ t.txSeq = s.txSeq) ∨
      ∃ len, i = .encode len ∧ len ≤ 1012 ∧
        ∀ j, t.txView j ≠ s.txView j → j < 12 + pad4 len ∧ ¬(8 ≤ j ∧ j < 8 + len) := by
  obtain ⟨-, rfl⟩ | ⟨-, ⟨-, rfl⟩ | ⟨-, rfl⟩ | ⟨_, -, -, rfl⟩ | ⟨len, hi, hl, rfl⟩ | ⟨-, rfl⟩ | ⟨-, -, -, rfl⟩ |
    ⟨-, -, rfl⟩⟩ := exec_cases h
  case inr.inr.inr.inr.inl =>
    rw [encodeInto_accept_countDraw]
    exact .inr ⟨len, hi, hl, fun j => lt_of_tx_frameInto_of_ne rfl rfl⟩
  all_goals exact .inl ⟨rfl, rfl, rfl⟩

/-- An accepted REQUEST with TXV = 1 alone emits and moves the correlator (R161, R162). -/
theorem request_exec (h : exec i s = .next t) :
    (t.sent = s.sent ∧ t.corr = s.corr) ∨
      (i = .request ∧ s.txv = true ∧ t.sent = s.sent ++ [slice s.txView 0 s.txLen.toNat] ∧ t.corr = .wait) := by
  obtain ⟨-, rfl⟩ | ⟨-, ⟨-, rfl⟩ | ⟨-, rfl⟩ | ⟨_, -, -, rfl⟩ | ⟨_, -, -, rfl⟩ | ⟨-, rfl⟩ | ⟨hi, hv, -, rfl⟩ |
    ⟨-, -, rfl⟩⟩ := exec_cases h
  case inr.inr.inr.inr.inr.inr.inl => exact .inr ⟨hi, hv, rfl, rfl⟩
  case inr.inr.inr.inr.inl =>
    rw [encodeInto_accept_countDraw]
    exact .inl ⟨rfl, rfl⟩
  all_goals exact .inl ⟨rfl, rfl⟩

end Commands

/-! The writers of each element, over every step. -/

section Writers
variable {s t : State}

theorem crcAcc_writers (h : step s = .next t) :
    t.crcAcc = s.crcAcc ∨ s.NextRuns .crcInit ∨ s.NextRuns .crcFeed ∨ s.NextResets := by
  cases step_kind h with
  | runs i hr p hx =>
    obtain hkept | rfl | rfl := crcAcc_exec hx
    · exact .inl hkept
    · exact .inr (.inl hr)
    · exact .inr (.inr (.inl hr))
  | arrives d _ _ p ht => exact .inl (ht ▸ arrive_keeps State.crcAcc d (s.setPending p) fun _ _ _ _ _ _ _ => rfl)
  | expires _ _ p ht => exact .inl (ht ▸ expire_keeps State.crcAcc (s.setPending p) fun _ _ _ _ => rfl)
  | resets hr => exact .inr (.inr (.inr hr))
  | _ =>
    subst t
    exact .inl rfl

theorem crcDin_writers (h : step s = .next t) : t.crcDin = s.crcDin ∨ s.NextStores 0x00C ∨ s.NextResets := by
  cases step_kind h with
  | runs i _ p hx => exact .inl (exec_frame hx).1
  | storeDin hs => exact .inr (.inl hs)
  | arrives d _ _ p ht => exact .inl (ht ▸ arrive_keeps State.crcDin d (s.setPending p) fun _ _ _ _ _ _ _ => rfl)
  | expires _ _ p ht => exact .inl (ht ▸ expire_keeps State.crcDin (s.setPending p) fun _ _ _ _ => rfl)
  | resets hr => exact .inr (.inr hr)
  | _ =>
    subst t
    exact .inl rfl

theorem frameRegisters_writers (h : step s = .next t) :
    (t.txLen = s.txLen ∧ t.txSeq = s.txSeq) ∨ (∃ len, len ≤ 1012 ∧ s.NextRuns (.encode len)) ∨ s.NextResets := by
  cases step_kind h with
  | runs i hr p hx =>
    obtain ⟨-, hkept⟩ | ⟨len, rfl, hl, -⟩ := transmit_exec hx
    · exact .inl hkept
    · exact .inr (.inl ⟨len, hl, hr⟩)
  | arrives d _ _ p ht =>
    subst ht
    exact .inl ⟨arrive_keeps State.txLen d (s.setPending p) fun _ _ _ _ _ _ _ => rfl,
      arrive_keeps State.txSeq d (s.setPending p) fun _ _ _ _ _ _ _ => rfl⟩
  | expires _ _ p ht =>
    subst ht
    exact .inl ⟨expire_keeps State.txLen (s.setPending p) fun _ _ _ _ => rfl,
      expire_keeps State.txSeq (s.setPending p) fun _ _ _ _ => rfl⟩
  | resets hr => exact .inr (.inr hr)
  | _ =>
    subst t
    exact .inl ⟨rfl, rfl⟩

theorem sent_writers (h : step s = .next t) :
    t.sent = s.sent ∨ (s.NextRuns .request ∧ s.txv = true ∧ t.sent = s.sent ++ [slice s.txView 0 s.txLen.toNat]) := by
  cases step_kind h with
  | runs i hr p hx =>
    obtain ⟨hkept, -⟩ | ⟨rfl, hv, hsent, -⟩ := request_exec hx
    · exact .inl hkept
    · exact .inr ⟨hr, hv, hsent⟩
  | arrives d _ _ p ht => exact .inl (ht ▸ arrive_keeps State.sent d (s.setPending p) fun _ _ _ _ _ _ _ => rfl)
  | expires _ _ p ht => exact .inl (ht ▸ expire_keeps State.sent (s.setPending p) fun _ _ _ _ => rfl)
  | _ =>
    subst t
    exact .inl rfl

/-- A word's store changes a byte only if the byte is one of its four. -/
theorem offset_of_word {off : BitVec 12} {first a i : Nat} (h4 : off.toNat % 4 = 0) (hfirst : first % 4 = 0)
    (ho : off.toNat = first + a ∧ a < 1024) (hi : a ≤ i ∧ i < a + 4) : off.toNat = first + 4 * (i / 4) ∧ i < 1024 := by
  omega

theorem txView_writers {i : Nat} (h : step s = .next t) (hne : t.txView i ≠ s.txView i) :
    (∃ off, s.NextStores off ∧ off.toNat = 0x400 + 4 * (i / 4) ∧ i < 1024) ∨
      (∃ len, s.NextRuns (.encode len) ∧ len ≤ 1012 ∧ i < 12 + pad4 len ∧ ¬(8 ≤ i ∧ i < 8 + len)) ∨ s.NextResets := by
  cases step_kind h with
  | runs j hr p hx =>
    obtain ⟨hkept, -⟩ | ⟨len, rfl, hl, hbytes⟩ := transmit_exec hx
    · exact absurd (congrFun hkept i) hne
    · exact .inr (.inl ⟨len, hr, hl, hbytes i hne⟩)
  | storeTx off a hs ho p v ht =>
    subst ht
    rw [State.txView_writeTx_word] at hne
    split at hne
    case isTrue hi => exact .inl ⟨off, hs, offset_of_word hs.1 rfl ho hi⟩
    case isFalse => exact absurd rfl hne
  | arrives d _ _ p ht =>
    subst ht
    exact absurd (congrFun (arrive_keeps State.txView d (s.setPending p) fun _ _ _ _ _ _ _ => rfl) i) hne
  | expires _ _ p ht =>
    subst ht
    exact absurd (congrFun (expire_keeps State.txView (s.setPending p) fun _ _ _ _ => rfl) i) hne
  | resets hr => exact .inr (.inr hr)
  | _ =>
    subst t
    exact absurd rfl hne

theorem rxView_writers {i : Nat} (h : step s = .next t) (hne : t.rxView i ≠ s.rxView i) :
    (s.busy = false ∧ ∃ off, s.NextStores off ∧ off.toNat = 0x800 + 4 * (i / 4) ∧ i < 1024) ∨
      (s.busy = true ∧ ∃ d, s.NextArrives d ∧ i < d.length ∧ i < 1024) ∨ s.NextResets := by
  cases step_kind h with
  | runs j _ p hx => exact absurd (congrFun (exec_frame hx).2 i) hne
  | storeRx off a hb hs ho p v ht =>
    subst ht
    rw [State.rxView_writeRx_word] at hne
    split at hne
    case isTrue hi => exact .inl ⟨hb, off, hs, offset_of_word hs.1 rfl ho hi⟩
    case isFalse => exact absurd rfl hne
  | arrives d hb hd p ht =>
    subst ht
    rw [rxView_arrive, State.rxView_capture] at hne
    split at hne
    case isTrue hi => exact .inr (.inl ⟨hb, d, hd, by omega, by omega⟩)
    case isFalse => exact absurd rfl hne
  | expires _ _ p ht =>
    subst ht
    exact absurd (congrFun (expire_keeps State.rxView (s.setPending p) fun _ _ _ _ => rfl) i) hne
  | resets hr => exact .inr (.inr hr)
  | _ =>
    subst t
    exact absurd rfl hne

theorem corr_writers (h : step s = .next t) (hne : t.corr ≠ s.corr) :
    (s.corr ≠ .wait ∧ s.NextRuns .request ∧ s.txv = true ∧ t.corr = .wait) ∨
      (s.corr = .wait ∧ (∃ d, s.NextArrives d) ∧ (t.corr = .matched ∨ (t.corr = .timeout ∧ t.slots = 0))) ∨
      (s.corr = .wait ∧ (s.pending = [] ∨ ∃ rest, s.pending = .slotExpiry :: rest) ∧ t.corr = .timeout ∧ t.slots = 0) ∨
      (s.NextResets ∧ t.corr = .idle) := by
  cases step_kind h with
  | runs i hr p hx =>
    obtain ⟨-, hkept⟩ | ⟨rfl, hv, -, hc⟩ := request_exec hx
    · exact absurd hkept hne
    · exact .inl ⟨s.busy_eq_false.mp hr.1, hr, hv, hc⟩
  | arrives d hb hd p ht =>
    subst ht
    refine .inr (.inl ⟨s.busy_eq_true.mp hb, ⟨d, hd⟩, ?_⟩)
    obtain ⟨-, -, -, ⟨hc, -⟩ | ⟨hc, -, hslots⟩ | ⟨hkept, -⟩⟩ := arrive_frame d (s.setPending p)
    · exact .inl hc
    · exact .inr ⟨hc, hslots⟩
    · exact absurd hkept hne
  | expires hb hp p ht =>
    subst ht
    obtain ⟨-, -, ⟨hc, -, hslots⟩ | ⟨hkept, -⟩⟩ := expire_frame (s.setPending p)
    · exact .inr (.inr (.inl ⟨s.busy_eq_true.mp hb, hp, hc, hslots⟩))
    · exact absurd hkept hne
  | resets hr p redraw ht => exact .inr (.inr (.inr ⟨hr, ht ▸ rfl⟩))
  | _ =>
    subst t
    exact absurd rfl hne

end Writers

/-! The obligations. -/

/-- Settles O43: the writers of CRC_ACC. -/
theorem onlyCrcCommandsWriteCrcAcc : Obligations.OnlyCrcCommandsWriteCrcAcc :=
  fun _ _ h hne => (crcAcc_writers h).resolve_left hne

/-- Settles O44: the writers of CRC_DIN. -/
theorem onlyHostWritesCrcDin : Obligations.OnlyHostWritesCrcDin :=
  fun _ _ h hne => (crcDin_writers h).resolve_left hne

/-- Settles O45: the writers of TX_LEN and TX_SEQ. -/
theorem onlyEncodeWritesFrameRegisters : Obligations.OnlyEncodeWritesFrameRegisters :=
  fun _ _ h hne => (frameRegisters_writers h).resolve_left (not_and_or.mpr hne)

/-- Settles O46: the writers of the emitted datagrams. -/
theorem onlyRequestEmits : Obligations.OnlyRequestEmits := fun _ _ => sent_writers

/-- Settles O47: the writers of a byte of TX. -/
theorem txByteWriters : Obligations.TxByteWriters := fun _ _ _ => txView_writers

/-- Settles O48: the writers of a byte of RX. -/
theorem rxByteWriters : Obligations.RxByteWriters := fun _ _ _ => rxView_writers

/-- Settles O49: the writers of CORR, each with the transition it makes. -/
theorem correlatorTransitions : Obligations.CorrelatorTransitions := fun _ _ => corr_writers

/-- Settles O51: with BUSY = 1 a host operation is an ignored write, a read, a rejected command or a store to CRC_DIN or
TX; every other kind of step needs BUSY = 0 or another agent's event. -/
theorem waitShieldsBlockFromHost : Obligations.WaitShieldsBlockFromHost := by
  intro s t op rest hb hp h
  cases step_kind h with
  | runs i hr => exact absurd hb (by simp [hr.1])
  | illegal ha => exact absurd hb (by simp [ha.1])
  | storeRxLen hfree => exact absurd hb (by simp [hfree])
  | storeRx _ _ hfree => exact absurd hb (by simp [hfree])
  | arrives d _ hd =>
    obtain ⟨-, _, hp'⟩ := hd
    simp [hp] at hp'
  | expires _ hp' => simp [hp] at hp'
  | resets hr =>
    obtain ⟨_, _, hp'⟩ := hr
    simp [hp] at hp'
  | _ =>
    subst t
    rfl

end Sys2Proof.Machine
end

section
/-!
PROOFS. The invariant of the reachable states (`State.Inv`): the state after reset meets it, every step of every agent
keeps it, and from it no step faults (spec/10_state.md R24 to R35; spec/60_exceptions.md R203).
-/
namespace Sys2Proof.Machine

/-- Settles O53: the clauses evaluated on the state after reset. -/
theorem resetMeetsInvariant : Obligations.ResetMeetsInvariant := by
  constructor <;> simp [State.reset] <;> decide

/-- Header, padding and trailer of a frame that fits are written inside TX (R133). -/
theorem wf_frameInto {s : State} {len : Nat} (hl : len ≤ 1012) (seq : Half) (hwf : s.tx.wf = true) :
    (frameInto len seq s).tx.wf = true := by
  have hfit : 12 + pad4 len ≤ 1024 := pad4_le_of_le hl
  have hpad := le_pad4 len
  refine Memory.wf_writeBytes ?_ (Memory.wf_writeBytes ?_ (Memory.wf_writeBytes ?_ hwf)) <;>
    simp only [length_bytes32, length_zeros, length_frameHeader, Config.maxFrame, Config.hdrBytes] <;> omega

/-- An aligned word of a buffer ends inside it. -/
theorem wf_writeWord {m : Memory} {off : BitVec 12} {first a : Nat} (v : Word) (h4 : off.toNat % 4 = 0)
    (hfirst : first % 4 = 0) (ho : off.toNat = first + a ∧ a < 1024) (hm : m.wf = true) :
    (m.writeBytes a (bytes32 v)).wf = true :=
  Memory.wf_writeBytes (by rw [length_bytes32, Config.maxFrame]; omega) hm

/-! Each kind of step keeps the invariant; a proof names the clauses the step touches. -/

section Steps
variable {s t : State} (hi : s.Inv)
include hi

/-- The clauses say nothing about what the agents do next. -/
theorem State.Inv.setPending (p : List Event) : (s.setPending p).Inv := { hi with }

theorem State.Inv.reject (hw : s.corr = .wait) : s.reject.Inv :=
  { hi with rejAfterRequest := fun _ hc => absurd (hw.symm.trans hc) (by decide) }

/-- An accepted command clears REJ and reports an error other than TIMEOUT (R94, R170). -/
theorem State.Inv.report (hc : s.corr ≠ .wait) {e : ErrCode} (he : e ≠ .timeout) : (s.accept.raise e).Inv :=
  { hi with
    waitErr := fun h => absurd h hc
    rejAfterRequest := nofun
    errTimeout := fun h => absurd h he }

/-- A frame that fits leaves TX_LEN between 12 and 1024, a multiple of 4 (R26, R133). -/
theorem State.Inv.encodeInto (hc : s.corr ≠ .wait) {len : Nat} (hl : len ≤ 1012) (seq : Half) :
    (encodeInto len seq s.accept.countDraw).Inv := by
  have hfit : 12 + pad4 len ≤ 1024 := pad4_le_of_le hl
  have hmod := pad4_mod len
  have hlen : (BitVec.ofNat 16 (12 + pad4 len)).toNat = 12 + pad4 len :=
    Nat.mod_eq_of_lt (show 12 + pad4 len < 2 ^ 16 by omega)
  rw [encodeInto_accept_countDraw]
  exact
    { hi with
      txWf := wf_frameInto hl seq hi.txWf
      waitTxv := fun h => absurd h hc
      waitErr := fun h => absurd h hc
      waitSeq := fun h => absurd h hc
      txLenFits := .inr (by rw [hlen]; omega)
      txvLen := fun _ h => by
        have hzero : 12 + pad4 len = 0 := hlen.symm.trans (congrArg BitVec.toNat h)
        omega
      rejAfterRequest := nofun
      errTimeout := nofun }

/-- REQUEST consumes the frame, which is one whole frame, and starts with three slots (R161, R162). -/
theorem State.Inv.startWait (hv : s.txv = true) : (s.accept.emit (slice s.txView 0 s.txLen.toNat)).startWait.Inv :=
  { hi with
    waitSlots := fun _ => show Config.slotBudget ≠ 0 by decide
    idleSlots := nofun
    timeoutSlots := nofun
    matchedSlots := nofun
    waitTxv := fun _ => rfl
    waitErr := fun _ => rfl
    waitSeq := fun _ => rfl
    txvLen := nofun
    sentFrames := fun d hd => by
      obtain hd | hd := List.mem_append.mp hd
      · exact hi.sentFrames d hd
      · rw [List.mem_singleton.mp hd, length_slice, Nat.sub_zero]
        exact hi.txLenFits.resolve_left (hi.txvLen hv)
    rejAfterRequest := nofun
    errTimeout := nofun
    seqMismatchAfterRequest := nofun }

/-- Every command's own effect, and its rejection. -/
theorem State.Inv.exec {i : Instr} (h : exec i s = .next t) : t.Inv := by
  obtain ⟨hb, rfl⟩ | ⟨hb, hx⟩ := exec_cases h
  · exact hi.reject (s.busy_eq_true.mp hb)
  have hc : s.corr ≠ .wait := s.busy_eq_false.mp hb
  have hdone : (s.accept.raise .none).Inv := hi.report hc (by decide)
  obtain ⟨-, rfl⟩ | ⟨-, rfl⟩ | ⟨len, -, -, rfl⟩ | ⟨len, -, hl, rfl⟩ | ⟨-, rfl⟩ | ⟨-, hv, -, rfl⟩ | ⟨-, -, rfl⟩ := hx
  · exact { hdone with }
  · exact { hdone with }
  · exact { hi.report hc (show ErrCode.encodeTooLong ≠ .timeout by decide) with
      waitTxv := fun _ => rfl
      txvLen := nofun }
  · exact hi.encodeInto hc hl _
  · have herr : (decodeVerdict s.rxView s.rxLen.toNat).err ≠ .timeout := by
      cases decodeVerdict s.rxView s.rxLen.toNat <;> decide
    exact { hi.report hc herr with seqMismatchAfterRequest := nofun }
  · exact hi.startWait hv
  · exact hi.report hc (by decide)

/-- The end of a step that takes a slot in WAIT: a match, the timeout with no slot left, or the wait goes on. -/
theorem State.Inv.takesSlot (hw : s.corr = .wait)
    (hframe : t = { s with
      rx := t.rx, rxLen := t.rxLen, slots := t.slots, ldec := t.ldec, corr := t.corr, err := t.err })
    (hrx : t.rx.wf = true) (hslots : t.slots = s.takeSlot.slots)
    (hend : (t.corr = .matched ∧ t.err = .none) ∨ (t.corr = .timeout ∧ t.err = .timeout ∧ t.slots = 0) ∨
      (t.corr = s.corr ∧ t.err = s.err ∧ t.slots ≠ 0)) : t.Inv := by
  have hidle : t.corr ≠ .idle := by
    obtain ⟨hc, -⟩ | ⟨hc, -⟩ | ⟨hc, -⟩ := hend <;> simp [hc, hw]
  have hthree : t.slots ≠ 3 := by
    rw [hslots, Ne, Fin.ext_iff, State.slots_takeSlot]
    have := s.slots.isLt
    show s.slots.val - 1 ≠ 3
    omega
  have hleft : t.corr = .wait → t.slots ≠ 0 ∧ t.err = .none := by
    obtain ⟨hc, -⟩ | ⟨hc, -⟩ | ⟨hc, he, hz⟩ := hend
    · simp [hc]
    · simp [hc]
    · exact fun _ => ⟨hz, he.trans (hi.waitErr hw)⟩
  have hspent : t.corr = .timeout → t.slots = 0 := by
    obtain ⟨hc, -⟩ | ⟨-, -, hz⟩ | ⟨hc, -⟩ := hend
    · simp [hc]
    · exact fun _ => hz
    · simp [hc, hw]
  have herr : t.err = .timeout → t.corr = .timeout := by
    obtain ⟨-, he⟩ | ⟨hc, -⟩ | ⟨-, he, -⟩ := hend
    · simp [he]
    · exact fun _ => hc
    · simp [he, hi.waitErr hw]
  rw [hframe]
  exact
    { hi with
      rxWf := hrx
      waitSlots := fun h => (hleft h).1
      idleSlots := fun h => absurd h hidle
      timeoutSlots := hspent
      matchedSlots := fun _ => hthree
      waitTxv := fun _ => hi.waitTxv hw
      waitErr := fun h => (hleft h).2
      waitSeq := fun _ => hi.waitSeq hw
      rejAfterRequest := fun _ => hidle
      errTimeout := herr
      seqMismatchAfterRequest := fun _ => hidle }

theorem State.Inv.arrive (hw : s.corr = .wait) (d : List Byte) : (arrive d s).Inv := by
  obtain ⟨hframe, hrx, hslots, hend⟩ := arrive_frame d s
  have hwf : (s.capture d).rx.wf = true := Memory.wf_writeBytes (by rw [List.length_take]; omega) hi.rxWf
  exact hi.takesSlot hw hframe (hrx ▸ hwf) hslots (hend.imp_left fun ⟨hc, he, _⟩ => ⟨hc, he⟩)

theorem State.Inv.expire (hw : s.corr = .wait) : (expire s).Inv := by
  obtain ⟨hframe, hslots, hend⟩ := expire_frame s
  have hrx : (Machine.expire s).rx = s.rx := expire_keeps State.rx s fun _ _ _ _ => rfl
  have hrxLen : (Machine.expire s).rxLen = s.rxLen := expire_keeps State.rxLen s fun _ _ _ _ => rfl
  refine hi.takesSlot hw ?_ (hrx ▸ hi.rxWf) hslots (.inr hend)
  rw [hrx, hrxLen, ldec_expire]
  exact hframe

/-- The buffers keep their bytes or lose them all; what was sent stays (R220). -/
theorem State.Inv.resetEvent (redraw : Bool) : (resetEvent redraw s).Inv :=
  { resetMeetsInvariant with
    txWf := by cases redraw with | false => exact hi.txWf | true => rfl
    rxWf := by cases redraw with | false => exact hi.rxWf | true => rfl
    sentFrames := hi.sentFrames }

end Steps

/-! From a TX_LEN that fits the buffer no command faults (R203). -/

section NoFault
variable {s : State} (hfit : s.txLen.toNat ≤ 1024)
include hfit

theorem exists_exec (i : Instr) : ∃ t, exec i s = .next t := by
  cases hb : s.busy with
  | true => exact ⟨_, exec_of_busy i hb⟩
  | false =>
    cases i with
    | crcInit => exact ⟨_, exec_crcInit_of_free hb⟩
    | crcFeed => exact ⟨_, exec_crcFeed_of_free hb⟩
    | encode len =>
      obtain hl | hl := Nat.lt_or_ge 1012 len
      · exact ⟨_, exec_encode_of_tooLong hb hl⟩
      · exact ⟨_, exec_encode_of_fits hb hl⟩
    | decode => exact ⟨_, exec_decode_of_free hb⟩
    | request =>
      cases hv : s.txv with
      | false => exact ⟨_, exec_request_of_invalid hb hv⟩
      | true => exact ⟨_, exec_request_of_fits hb hv hfit⟩

theorem exists_commandWrite (w : Word) : ∃ t, commandWrite w s = .next t := by
  rw [commandWrite]
  cases decodeWord w with
  | ok i => exact exists_exec hfit i
  | error e =>
    cases hb : s.busy with
    | true => exact ⟨_, gate_of_busy _ hb⟩
    | false => exact ⟨_, gate_of_free _ hb⟩

theorem exists_memWrite (off : BitVec 12) (v : Word) : ∃ t, memWrite off v s = .next t := by
  cases hslot : windowSlot off with
  | cmd =>
    simp only [memWrite, hslot]
    exact exists_commandWrite hfit v
  | _ =>
    simp only [memWrite, hslot]
    exact ⟨_, rfl⟩

end NoFault

/-! The obligations. -/

/-- Settles O52: one lemma per kind of step. -/
theorem stepKeepsInvariant : Obligations.StepKeepsInvariant := by
  intro s t hi h
  cases step_kind h with
  | quiet p ht => exact ht ▸ hi.setPending p
  | read p v ht => exact ht ▸ { hi with }
  | reject hb _ p ht => exact ht ▸ (hi.setPending p).reject (s.busy_eq_true.mp hb)
  | runs i _ p hx => exact (hi.setPending p).exec hx
  | illegal ha p ht => exact ht ▸ (hi.setPending p).report (s.busy_eq_false.mp ha.1) (by decide)
  | storeDin _ p v ht => exact ht ▸ { hi with }
  | storeRxLen _ p v ht => exact ht ▸ { hi with }
  | storeTx off a hs ho p v ht => exact ht ▸ { hi with txWf := wf_writeWord v hs.1 rfl ho hi.txWf }
  | storeRx off a _ hs ho p v ht => exact ht ▸ { hi with rxWf := wf_writeWord v hs.1 rfl ho hi.rxWf }
  | arrives d hb _ p ht => exact ht ▸ (hi.setPending p).arrive (s.busy_eq_true.mp hb) d
  | expires hb _ p ht => exact ht ▸ (hi.setPending p).expire (s.busy_eq_true.mp hb)
  | resets _ p redraw ht => exact ht ▸ (hi.setPending p).resetEvent redraw

/-- Settles O54: the invariant's TX_LEN rules the only fault out; a refusal comes from the contract or the length of a
datagram. -/
theorem noFaultFromInvariant : Obligations.NoFaultFromInvariant := by
  intro s hi
  have hfit : s.txLen.toNat ≤ 1024 := by
    obtain hz | ⟨-, hle, -⟩ := hi.txLenFits
    · simp [hz]
    · exact hle
  cases hp : s.pending with
  | nil => exact .inl ⟨_, step_of_nil hp⟩
  | cons e rest =>
    cases e with
    | host op =>
      cases op with
      | load bytes off =>
        by_cases hout : bytes ≠ 4 ∨ off.toNat % 4 ≠ 0
        · exact .inr (.inl ⟨bytes, off, rest, hout, .inl rfl⟩)
        · obtain ⟨rfl, h4⟩ : bytes = 4 ∧ off.toNat % 4 = 0 := by omega
          exact .inl ⟨_, step_ld32 h4 hp⟩
      | store bytes off v =>
        by_cases hout : bytes ≠ 4 ∨ off.toNat % 4 ≠ 0
        · exact .inr (.inl ⟨bytes, off, rest, hout, .inr ⟨v, rfl⟩⟩)
        · obtain ⟨rfl, h4⟩ : bytes = 4 ∧ off.toNat % 4 = 0 := by omega
          rw [step_st32 h4 hp]
          exact .inl (exists_memWrite (s := { s with pending := rest }) hfit off v)
      | waitIdle => exact .inl ⟨_, step_of_waitIdle hp⟩
    | datagram d =>
      obtain hd | hd := Nat.lt_or_ge 65535 d.length
      · exact .inr (.inr ⟨d, rest, hd, rfl⟩)
      · exact .inl ⟨_, step_of_datagram hd hp⟩
    | slotExpiry => exact .inl ⟨_, step_of_slotExpiry hp⟩
    | reset redraw => exact .inl ⟨_, step_of_reset hp⟩

end Sys2Proof.Machine
end

section
/-!
PROOFS. Reset and the end of a run (spec/70_reset_and_hazards.md R220, R221, R232), and the datagram no network agent
delivers (spec/60_exceptions.md R203).
-/
namespace Sys2Proof.Machine

/-! The steps of an ended run (R232). -/

/-- Outside WAIT a step that takes a datagram or an expiry, or nothing at all, changes nothing but that it is taken. -/
theorem step_of_ended {s : State} (hc : s.corr ≠ .wait) (hpolling : s.pending.all Event.isPolling = true) :
    step s = .next (s.setPending s.pending.tail) := by
  have hfree : s.busy = false := s.busy_eq_false.mpr hc
  cases hp : s.pending with
  | nil =>
    rw [step_of_nil hp, timerEvent_of_free hfree, List.tail_nil, ← hp]
    rfl
  | cons e rest =>
    have hfree' : (s.setPending rest).busy = false := hfree
    rw [hp, List.all_cons, Bool.and_eq_true] at hpolling
    cases e with
    | datagram d =>
      rw [step_of_datagram (Event.length_of_isPolling hpolling.1 rfl) hp, deliver_of_free d hfree', List.tail_cons]
    | slotExpiry => rw [step_of_slotExpiry hp, timerEvent_of_free hfree', List.tail_cons]
    | _ => simp [Event.isPolling] at hpolling

theorem runSteps_of_ended (n : Nat) {s : State} (hc : s.corr ≠ .wait)
    (hpolling : s.pending.all Event.isPolling = true) : runSteps n s = .next (s.setPending (s.pending.drop n)) := by
  induction n generalizing s with
  | zero => rfl
  | succ n ih =>
    have htail : s.pending.tail.all Event.isPolling = true :=
      List.all_eq_true.mpr fun e he => List.all_eq_true.mp hpolling e (List.mem_of_mem_tail he)
    rw [runSteps_succ n (step_of_ended hc hpolling), ih (s := s.setPending s.pending.tail) hc htail,
      State.pending_setPending, List.drop_tail]
    rfl

/-! The obligations. -/

/-- Settles O59: any number of steps only takes events from the front of those pending. -/
theorem endedRunKeepsOutcome : Obligations.EndedRunKeepsOutcome := by
  rintro s ⟨hagents, hc⟩ hpolling
  refine ⟨fun n => ⟨_, runSteps_of_ended n hc hpolling, ⟨?_, hc⟩, rfl⟩, fun hp => ?_⟩
  · exact List.all_eq_true.mpr fun e he => List.all_eq_true.mp hagents e (List.mem_of_mem_drop he)
  · rw [step_of_nil hp, timerEvent_of_free (s.busy_eq_false.mpr hc)]

/-- Settles O55: the reset state's fields, then those of the reset event, with the buffers kept or drawn anew. -/
theorem resetValues : Obligations.ResetValues := by
  obtain ⟨-, -, hstatus⟩ := statusLayout
  refine ⟨⟨rfl, rfl, rfl, rfl, rfl, rfl, rfl, rfl, rfl, rfl, rfl, rfl, rfl, rfl, rfl, rfl, fun _ => ⟨rfl, rfl⟩, hstatus,
    rfl⟩, fun s redraw rest hp => ⟨_, step_of_reset hp, rfl, fun _ => ?tx, fun _ => ?rx, hstatus, rfl⟩⟩
  case tx => cases redraw <;> rfl
  case rx => cases redraw <;> rfl

/-- Settles O56: the reset leaves CORR idle, and outside WAIT the datagram is dropped. -/
theorem resetEndsWait : Obligations.ResetEndsWait := by
  intro s redraw d rest _ hd hp
  exact ⟨_, step_of_reset hp, rfl, rfl, rfl, datagramOutsideWaitDropped _ d rest rfl hd rfl⟩

/-- Settles O60: the network's event takes the branch of its length bound. -/
theorem impossibleDatagramRefused : Obligations.ImpossibleDatagramRefused := by
  intro s d rest hd hp
  rw [step_of_cons hp]
  exact if_pos hd

end Sys2Proof.Machine
end
